-- ==== Sys2Proof/Word.lean ====
section
/-! DEFINITION. The byte and word types of the block (spec 00_scope.md R12, R18; 20_memory.md R82). -/

namespace Sys2Proof

/-- An unsigned 8-bit value: a byte of a frame or of one of the block's memories (R12). -/
abbrev Byte := BitVec 8

/-- A command word, or a host-visible register read whole (R82, R110). -/
abbrev Word := BitVec 32

end Sys2Proof
end

