-- ==== Sys2Proof/Syntax.lean ====
section
/-! DEFINITION. The commands of the block, one constructor per row of the opcode table
(spec 30_encoding.md R115). -/

namespace Sys2Proof

/-- A command. `cb` is the PN532 command byte (field CB); `plen`, `rlen` and `nlen` are unsigned lengths (R114),
whose field widths `Instr.wf` checks. -/
inductive Instr where
  /-- PACK cb, plen (41_frame_codec.md R141) -/
  | pack (cb : Byte) (plen : Nat)
  /-- WAITRDY (42_handshake.md R200) -/
  | waitrdy
  /-- RDACK (41_frame_codec.md R151) -/
  | rdack
  /-- RDRESP rlen (41_frame_codec.md R161) -/
  | rdresp (rlen : Nat)
  /-- REQUEST cb, plen, rlen (42_handshake.md R201) -/
  | request (cb : Byte) (plen rlen : Nat)
  /-- SEND cb, plen (42_handshake.md R202) -/
  | send (cb : Byte) (plen : Nat)
  /-- NBEGIN nlen (44_ndef_parser.md R257) -/
  | nbegin (nlen : Nat)
  /-- NNEXT (44_ndef_parser.md R258) -/
  | nnext
  deriving DecidableEq, Repr

/-- The mnemonic of R115, as the opcode table spells it. -/
def Instr.mnemonic : Instr → String
  | .pack _ _ => "PACK"
  | .waitrdy => "WAITRDY"
  | .rdack => "RDACK"
  | .rdresp _ => "RDRESP"
  | .request _ _ _ => "REQUEST"
  | .send _ _ => "SEND"
  | .nbegin _ => "NBEGIN"
  | .nnext => "NNEXT"

end Sys2Proof
end

