-- ==== Sys2Proof/WellFormed.lean ====
section
/-! DEFINITION. Which instruction terms have an encoding: every length fits the field that holds it
(spec 30_encoding.md R111, R113, R114). Lengths the block does not take (R118) are still well formed. -/

namespace Sys2Proof

/-- PLEN and RLEN are 9-bit fields (R111, R114). -/
abbrev fitsLen (n : Nat) : Bool := decide (n < 512)

/-- NLEN is a 20-bit field (R113, R114). -/
abbrev fitsNlen (n : Nat) : Bool := decide (n < 1048576)

/-- Every operand fits its field. -/
def Instr.wf : Instr → Bool
  | .pack _ plen => fitsLen plen
  | .waitrdy => true
  | .rdack => true
  | .rdresp rlen => fitsLen rlen
  | .request _ plen rlen => fitsLen plen && fitsLen rlen
  | .send _ plen => fitsLen plen
  | .nbegin nlen => fitsNlen nlen
  | .nnext => true

end Sys2Proof
end

