-- ==== Sys2Proof/Decode.lean ====
section
/-! DEFINITION. The decoder of command words, total on all 32-bit words (spec 30_encoding.md R110 to R117), the encoder
(R111 to R113, R116), and the opcode table's match and mask rows (R116). -/

namespace Sys2Proof

/-- `bits[lo + width - 1 : lo]` of `w` as an unsigned number (00_scope.md R12). -/
def field (w : Word) (lo width : Nat) : Nat := w.toNat / 2 ^ lo % 2 ^ width

/-- OPC, bits 3:0 (R111). -/
def opcOf (w : Word) : Nat := field w 0 4
/-- CB, bits 11:4 (R111). -/
def cbOf (w : Word) : Nat := field w 4 8
/-- L1, bits 20:12 (R111). -/
def l1Of (w : Word) : Nat := field w 12 9
/-- L2, bits 29:21 (R111). -/
def l2Of (w : Word) : Nat := field w 21 9
/-- RSV, bits 31:30 (R111). -/
def rsvOf (w : Word) : Nat := field w 30 2
/-- bits 31:4, which format Z wants zero (R112). -/
def zOf (w : Word) : Nat := field w 4 28
/-- NLEN, bits 31:12 (R113). -/
def nlenOf (w : Word) : Nat := field w 12 20

/-- Why a word is illegal (R117). Both kinds are illegal in the same way; the decoder names them apart. -/
inductive IllegalWord where
  /-- OPC is 0x0, 0x7 or 0xA to 0xF -/
  | reservedOpcode (opc : Nat)
  /-- the row `opc` exists and a field it marks 0 is not zero -/
  | mustBeZero (opc : Nat)
  deriving DecidableEq, Repr

/-- `i` if the row's must-be-0 fields are zero (R115). -/
def legalIf (ok : Bool) (opc : Nat) (i : Instr) : Except IllegalWord Instr :=
  if ok then .ok i else .error (.mustBeZero opc)

/-- R115: OPC selects the row; the word is legal iff the row exists and every field it marks 0 is zero. -/
def decode (w : Word) : Except IllegalWord Instr :=
  match opcOf w with
  | 1 => legalIf (l2Of w == 0 && rsvOf w == 0) 1 (.pack (BitVec.ofNat 8 (cbOf w)) (l1Of w))
  | 2 => legalIf (zOf w == 0) 2 .waitrdy
  | 3 => legalIf (zOf w == 0) 3 .rdack
  | 4 => legalIf (cbOf w == 0 && l2Of w == 0 && rsvOf w == 0) 4 (.rdresp (l1Of w))
  | 5 => legalIf (rsvOf w == 0) 5 (.request (BitVec.ofNat 8 (cbOf w)) (l1Of w) (l2Of w))
  | 6 => legalIf (l2Of w == 0 && rsvOf w == 0) 6 (.send (BitVec.ofNat 8 (cbOf w)) (l1Of w))
  | 8 => legalIf (cbOf w == 0) 8 (.nbegin (nlenOf w))
  | 9 => legalIf (zOf w == 0) 9 .nnext
  | opc => .error (.reservedOpcode opc)

/-- Format F (R111): OPC, CB, L1 and L2 at their places, RSV zero. A length wider than its field loses its high bits
(log 19: only an ill-formed term has one). -/
def formatF (opc : Nat) (cb : Byte) (l1 l2 : Nat) : Word :=
  BitVec.ofNat 32 (opc + cb.toNat * 16 + l1 % 512 * 4096 + l2 % 512 * 2097152)

/-- Format Z (R112): OPC alone. -/
def formatZ (opc : Nat) : Word := BitVec.ofNat 32 opc

/-- Format N (R113): OPC and NLEN. -/
def formatN (opc nlen : Nat) : Word := BitVec.ofNat 32 (opc + nlen % 1048576 * 4096)

/-- The encoders of R116. -/
def encode : Instr → Word
  | .pack cb plen => formatF 1 cb plen 0
  | .waitrdy => formatZ 2
  | .rdack => formatZ 3
  | .rdresp rlen => formatF 4 0 rlen 0
  | .request cb plen rlen => formatF 5 cb plen rlen
  | .send cb plen => formatF 6 cb plen 0
  | .nbegin nlen => formatN 8 nlen
  | .nnext => formatZ 9

/-- A row of the match and mask table of R116. -/
structure OpcodeRow where
  mnemonic : String
  pattern : Word
  mask : Word
  deriving DecidableEq, Repr

/-- `(w AND mask) = match` (R116). -/
def OpcodeRow.accepts (r : OpcodeRow) (w : Word) : Bool := w &&& r.mask == r.pattern

/-- The table of R116. -/
def opcodeTable : List OpcodeRow :=
  [ ⟨"PACK", 0x00000001, 0xFFE0000F⟩,
    ⟨"WAITRDY", 0x00000002, 0xFFFFFFFF⟩,
    ⟨"RDACK", 0x00000003, 0xFFFFFFFF⟩,
    ⟨"RDRESP", 0x00000004, 0xFFE00FFF⟩,
    ⟨"REQUEST", 0x00000005, 0xC000000F⟩,
    ⟨"SEND", 0x00000006, 0xFFE0000F⟩,
    ⟨"NBEGIN", 0x00000008, 0x00000FFF⟩,
    ⟨"NNEXT", 0x00000009, 0xFFFFFFFF⟩ ]

/-- The instruction the decoder reads from an opcode-table word: one 32-bit word (R110), the bits above `nbits` zero. -/
def decodeTableWord (nbits w : Nat) : Option Instr :=
  match decode (BitVec.ofNat 32 (w % 2 ^ nbits)) with
  | .ok i => some i
  | .error _ => none

end Sys2Proof
end

