-- ==== Sys2Proof/Config.lean ====
section
/-! DEFINITION. What an implementation of the block fixes (the four parameters of spec 00_scope.md R7 to R10),
and the free values the spec leaves open (its draws, 93_implementation_defined.md items 6 to 8). -/

namespace Sys2Proof

/-- NO_TLV_ACTION (R10, 44_ndef_parser.md R262): what the NRP does when no NDEF TLV is found. -/
inductive NoTlvAction where
  /-- yield END with ERR = 0 (the default) -/
  | endItem
  /-- the model refuses the NNEXT -/
  | refuse
  deriving DecidableEq, Repr

/-- The four implementation parameters. The spec leaves each open, so the step reads them from the state and every
claim quantifies over them. -/
structure Config where
  /-- BUF_CAP, the scratch buffer capacity in bytes (R7) -/
  bufCap : Nat
  /-- NIN_CAP, the NDEF input memory size in bytes (R8) -/
  ninCap : Nat
  /-- ACK_FRAME, the ACK constant (R9) -/
  ackFrame : List Byte
  /-- NO_TLV_ACTION (R10) -/
  noTlvAction : NoTlvAction
  deriving DecidableEq, Repr

/-- The constraints R7 to R9 put on the parameters. -/
abbrev Config.wf (c : Config) : Prop :=
  (10 ≤ c.bufCap ∧ c.bufCap ≤ 263) ∧ (1 ≤ c.ninCap ∧ c.ninCap ≤ 1048575) ∧ c.ackFrame.length = 6

/-- The parameters `State.reset` carries. DESIGN CHOICE (log 2): BUF_CAP 32 and NIN_CAP 64 are the example values of
95_test_vectors.md, NO_TLV_ACTION END is R10's default. PRESUMED (log 3): the ACK bytes are R9's default, which the
spec marks as general knowledge. Unsafe where a claim rests on these values; no statement does. -/
def Config.atReset : Config where
  bufCap := 32
  ninCap := 64
  ackFrame := [0x00, 0x00, 0xFF, 0x00, 0xFF, 0x00]
  noTlvAction := .endItem

/-- FREE VALUE (log 6): the `n`-th drawn byte. Nothing constrains it (R152, R162, 20_memory.md R91). -/
opaque Config.freeByte : Nat → Byte

/-- FREE VALUE (log 6): the `n`-th drawn word. Nothing constrains it (20_memory.md R91). -/
opaque Config.freeWord : Nat → Word

end Sys2Proof
end

