-- ==== Sys2Proof/Machine/State.lean ====
section
/-! DEFINITION. The state of the block as plain data (spec 10_state.md R30 to R59), what the agents can do to it
(20_memory.md R85 to R99, 70_reset_and_hazards.md R340), the ways a step can stop (60_exceptions.md R319), and the state
after reset (R58). Registers that the spec lays out in fields are held by field; `Machine/Flags.lean` computes the 32-bit
words the host sees. -/

namespace Sys2Proof.Machine

/-! ## Registers -/

/-- The error codes STATUS.ERR can hold (60_exceptions.md R301). Codes 8 and 9 belong to the companion and code 14 to
nothing, so they are no values of this type. -/
inductive ErrCode where
  | none
  | transport
  | tooMuchData
  | notAcknowledged
  | badResponse
  | badChecksum
  | bufferUnderflow
  | syntaxErr
  | notFormatted
  | underflowHeader
  | underflowPayload
  | utf8
  | illegalCommand
  deriving DecidableEq, Repr

/-- STATUS.PHASE (42_handshake.md R191); the values 6 and 7 never occur (10_state.md R34). -/
inductive Phase where
  | idle
  | send
  | wait1
  | ack
  | wait2
  | recv
  deriving DecidableEq, Repr

/-- STATUS (10_state.md R34). -/
structure Status where
  busy : Bool
  done : Bool
  err : ErrCode
  phase : Phase
  lastop : BitVec 4
  deriving DecidableEq, Repr

/-- RESULT (10_state.md R35). -/
structure ResultReg where
  rcmd : Byte
  rplen : BitVec 9
  rvalid : Bool
  deriving DecidableEq, Repr

/-- NSTATE.STATE (10_state.md R37, 44_ndef_parser.md R251); the value 3 never occurs. -/
inductive NState where
  | fresh
  | reading
  | complete
  deriving DecidableEq, Repr

/-- NITEM.KIND (10_state.md R40). The parser never yields wellKnown, absoluteUri or external (44_ndef_parser.md R275). -/
inductive RecKind where
  | empty
  | wellKnown
  | mimeMedia
  | absoluteUri
  | external
  | unknown
  | unexpected
  deriving DecidableEq, Repr

/-- NITEM (10_state.md R40): KIND and FLAGS are there only when TAG is RECORD, and read 0 otherwise. -/
inductive Item where
  /-- TAG NONE: nothing yielded since reset or the last NBEGIN -/
  | none
  /-- TAG RECORD with KIND and FLAGS -/
  | record (kind : RecKind) (flags : Byte)
  /-- TAG ERROR: the code is in STATUS.ERR -/
  | error
  /-- TAG END: the sequence yielded no further item -/
  | endItem
  deriving DecidableEq, Repr

/-! ## Memories -/

/-- A memory (SCR, STG, NIN; 10_state.md R47 to R49): the written bytes with their offsets, the offsets strictly rising.
A byte is listed exactly when its written mark is set (R50); an unlisted byte holds no value. -/
abbrev Memory := List Host.Cell

/-- The offsets rise strictly, so that equal memories are equal lists. -/
def Memory.rising : Memory → Bool
  | [] => true
  | [_] => true
  | x :: y :: rest => decide (x.1 < y.1) && Memory.rising (y :: rest)

/-- The canonical form of a memory. -/
abbrev Memory.wf (m : Memory) : Prop := m.rising = true

/-- Every listed offset lies below `cap`. -/
abbrev Memory.within (m : Memory) (cap : Nat) : Prop := ∀ c ∈ m, c.1 < cap

/-! ## The transport port and the other agents -/

/-- A transport call (10_state.md R51, 00_scope.md R15). -/
inductive Call where
  /-- T.send(s): the whole byte sequence offered (20_memory.md R95) -/
  | send (bytes : List Byte)
  /-- T.wait() (R98) -/
  | wait
  /-- T.recv(n) (R96) -/
  | recv (n : Nat)
  deriving DecidableEq, Repr

/-- How the transport completes a call (R95 to R98). -/
inductive Completion where
  /-- a send or a wait succeeded -/
  | ok
  /-- a receive succeeded with these bytes -/
  | okBytes (bytes : List Byte)
  /-- the call failed with an opaque 32-bit value (R97) -/
  | fail (info : Word)
  deriving DecidableEq, Repr

/-- The width of a host access to the register window (R82). -/
inductive Width where
  | byte
  | half
  | word
  deriving DecidableEq, Repr

/-- The byte memories the host can address (R88). -/
inductive Space where
  | scr
  | stg
  | nin
  deriving DecidableEq, Repr

/-- A host step (10_state.md R30): a read or write of the register window at a byte offset, or of one byte of a memory. -/
inductive HostAction where
  | readReg (width : Width) (off : Nat)
  | writeReg (width : Width) (off : Nat) (value : Word)
  | readMem (space : Space) (off : Nat)
  | writeMem (space : Space) (off : Nat) (value : Byte)
  deriving DecidableEq, Repr

/-- One step of one agent (R30), or the reset input (70_reset_and_hazards.md R340). -/
inductive Event where
  /-- the host acts -/
  | host (a : HostAction)
  /-- the transport completes the pending call -/
  | transport (c : Completion)
  /-- the transport completes a call that a reset abandoned: it is not delivered (R342) -/
  | late (c : Completion)
  /-- the reset input -/
  | reset
  deriving DecidableEq, Repr

/-- What the last host read returned (the model's own, log 14). -/
inductive ReadData where
  | none
  | word (w : Word)
  | byte (b : Byte)
  deriving DecidableEq, Repr

/-- The latched operands and payload of the command in progress (10_state.md R53): the instruction carries OPC, CMD,
PLEN, RLEN and NLEN; `payload` is P, empty until STG has been read. -/
structure Latch where
  instr : Instr
  payload : List Byte
  deriving DecidableEq, Repr

/-! ## Stops -/

/-- The model-level faults (60_exceptions.md R319): a read of a byte nothing has written. All are safe: the model stops
where the hardware would go on with a value nothing defines. -/
inductive Fault where
  /-- PACK, REQUEST or SEND reads an unwritten STG byte, or the host does (10_state.md R50, log 9). Safe. -/
  | unwrittenStage
  /-- NNEXT reads an unwritten NIN byte, or the host does (R50, log 9). Safe. -/
  | unwrittenInput
  /-- the host reads an unwritten SCR byte (R50). Safe. -/
  | unwrittenScratch
  deriving DecidableEq, Repr

/-- The model-level refusals (R319). All are safe: the model gives the situation no next state. -/
inductive Refusal where
  /-- the instruction has no meaning yet: raised by no arm of this model. Safe. -/
  | notModelled (mnemonic : String)
  /-- the host writes CMD while STATUS.BUSY = 1 (70_reset_and_hazards.md R352). Safe. -/
  | busyWrite
  /-- RDRESP or REQUEST with RLEN + 9 > BUF_CAP (41_frame_codec.md R161, 42_handshake.md R201). Safe. -/
  | responseTooLong
  /-- NBEGIN with NLEN > NIN_CAP (44_ndef_parser.md R257). Safe. -/
  | inputTooLong
  /-- NNEXT finds no NDEF TLV and NO_TLV_ACTION is REFUSE (R262). Safe. -/
  | noTlvFound
  /-- a host access to the register window narrower than a word (20_memory.md R82). Safe. -/
  | narrowAccess
  /-- a host access to SCR, STG or NIN outside its range (R88). Safe. -/
  | outOfRange
  /-- a host write to NIN while NSTATE is FRESH or READING (70_reset_and_hazards.md R353). Safe. -/
  | inputWriteDuringParse
  /-- an event the transport's contract rules out: bytes for a send or a wait, none or a wrong number for a receive
  (20_memory.md R96, R99; log 11). Safe. -/
  | badCompletion
  deriving DecidableEq, Repr

/-! ## The state -/

/-- Everything the spec gives the block, and the model's own four fields. -/
structure State where
  /-- the implementation parameters; no step writes them (log 2) -/
  cfg : Config
  /-- CMD: the last accepted word (R33) -/
  cmd : Word
  /-- STATUS (R34) -/
  status : Status
  /-- RESULT (R35) -/
  result : ResultReg
  /-- TERRINFO (R36) -/
  terrinfo : Word
  /-- NSTATE (R37) -/
  nstate : NState
  /-- NCUR bits 19:0 (R38) -/
  ncur : BitVec 20
  /-- NLEN bits 19:0 (R39) -/
  nlen : BitVec 20
  /-- NITEM (R40) -/
  nitem : Item
  /-- NREC_OFF bits 19:0 (R41) -/
  nrecOff : BitVec 20
  /-- NREC_LEN bits 19:0 (R41) -/
  nrecLen : BitVec 20
  /-- NTYPE_OFF bits 19:0 (R42) -/
  ntypeOff : BitVec 20
  /-- NTYPE_LEN bits 19:0 (R42) -/
  ntypeLen : BitVec 20
  /-- NVAL_OFF bits 19:0 (R43) -/
  nvalOff : BitVec 20
  /-- NVAL_LEN bits 19:0 (R43) -/
  nvalLen : BitVec 20
  /-- SCR, the scratch buffer (R47) -/
  scr : Memory
  /-- STG, the payload staging memory (R48) -/
  stg : Memory
  /-- NIN, the NDEF input memory (R49) -/
  nin : Memory
  /-- the pending transport call (R51) -/
  pending : Option Call
  /-- ACKCAP: the 6 bytes of the last ACK read, or unwritten (R52) -/
  ackcap : Option (List Byte)
  /-- the latched operands of the command in progress (R53) -/
  latch : Option Latch
  /-- how many free values have been drawn (the model's own, log 6) -/
  draws : Nat
  /-- what the last host read returned (the model's own, log 14) -/
  hostRead : ReadData
  /-- the agents' coming steps, the next one first (the model's own, log 1) -/
  events : List Event
  deriving DecidableEq, Repr

/-- The block right after reset with parameters `cfg` (R58, 70_reset_and_hazards.md R341); of the model's own fields,
nothing drawn, nothing read and no step to come. -/
def State.resetWith (cfg : Config) : State where
  cfg := cfg
  cmd := 0
  status := { busy := false, done := false, err := .none, phase := .idle, lastop := 0 }
  result := { rcmd := 0, rplen := 0, rvalid := false }
  terrinfo := 0
  nstate := .complete
  ncur := 0
  nlen := 0
  nitem := .none
  nrecOff := 0
  nrecLen := 0
  ntypeOff := 0
  ntypeLen := 0
  nvalOff := 0
  nvalLen := 0
  scr := []
  stg := []
  nin := []
  pending := none
  ackcap := none
  latch := none
  draws := 0
  hostRead := .none
  events := []

/-- The machine right after reset (R58), with the parameters of `Config.atReset` (log 2). -/
def State.reset : State := State.resetWith Config.atReset

end Sys2Proof.Machine
end

