-- ==== Sys2Proof/Machine/Operands.lean ====
section
/-! DEFINITION. The operands of the commands (spec 30_encoding.md R114), the byte arithmetic of 00_scope.md R13, and which
phases and which effects of acceptance each command has (42_handshake.md R193, 60_exceptions.md R305). -/

namespace Sys2Proof.Machine

/-! ## Arithmetic (R13) -/

/-- `sum8(s)`: the sum of the bytes mod 256 (R13). -/
def sum8 (s : List Byte) : Byte := s.foldr (· + ·) 0

/-- `neg8(x) = ((NOT x) + 1) mod 256` (R13). -/
def neg8 (x : Byte) : Byte := ~~~x + 1

/-- `be32`: four bytes, the most significant first (R13, 20_memory.md R81). -/
def be32 (b0 b1 b2 b3 : Byte) : Nat :=
  b0.toNat * 2 ^ 24 + b1.toNat * 2 ^ 16 + b2.toNat * 2 ^ 8 + b3.toNat

/-- Byte `k` of a byte sequence (`s[k]`, R12); 0 past its end, where no rule reads. -/
def at8 (s : List Byte) (k : Nat) : Byte := s.getD k 0

/-- `s[a..b)` (R12). -/
def slice (s : List Byte) (a b : Nat) : List Byte := (s.drop a).take (b - a)

/-! ## Operands of a command (R114) -/

/-- CMDB, or 0 where the command has none. -/
def cmdbOf : Instr → Byte
  | .pack cb _ => cb
  | .waitrdy => 0
  | .rdack => 0
  | .rdresp _ => 0
  | .request cb _ _ => cb
  | .send cb _ => cb
  | .nbegin _ => 0
  | .nnext => 0

/-- PLEN, or 0 where the command has none. -/
def plenOf : Instr → Nat
  | .pack _ plen => plen
  | .waitrdy => 0
  | .rdack => 0
  | .rdresp _ => 0
  | .request _ plen _ => plen
  | .send _ plen => plen
  | .nbegin _ => 0
  | .nnext => 0

/-- RLEN, or 0 where the command has none. -/
def rlenOf : Instr → Nat
  | .pack _ _ => 0
  | .waitrdy => 0
  | .rdack => 0
  | .rdresp rlen => rlen
  | .request _ _ rlen => rlen
  | .send _ _ => 0
  | .nbegin _ => 0
  | .nnext => 0

/-! ## What acceptance does for a command (60_exceptions.md R305) -/

/-- The FCU and HSQ commands, which set BUSY and clear TERRINFO (R305). -/
def usesTransport : Instr → Bool
  | .pack _ _ => true
  | .waitrdy => true
  | .rdack => true
  | .rdresp _ => true
  | .request _ _ _ => true
  | .send _ _ => true
  | .nbegin _ => false
  | .nnext => false

/-- The commands whose acceptance clears RESULT (R305, 10_state.md R35). -/
def clearsResult : Instr → Bool
  | .pack _ _ => true
  | .waitrdy => false
  | .rdack => false
  | .rdresp _ => true
  | .request _ _ _ => true
  | .send _ _ => true
  | .nbegin _ => false
  | .nnext => false

/-! ## The phase table (42_handshake.md R193) -/

/-- The phases of each command, in order (R193). -/
def phasesOf : Instr → List Phase
  | .pack _ _ => [.send]
  | .waitrdy => [.wait1]
  | .rdack => [.ack]
  | .rdresp _ => [.recv]
  | .request _ _ _ => [.send, .wait1, .ack, .wait2, .recv]
  | .send _ _ => [.send, .wait1, .ack]
  | .nbegin _ => []
  | .nnext => []

/-- The element after the first `p` of a list, if any. -/
def successor (p : Phase) : List Phase → Option Phase
  | [] => none
  | [_] => none
  | q :: r :: rest => if q = p then some r else successor p (r :: rest)

/-- The phase a command enters when `p` finishes without error; none after its last (R193). -/
def nextPhase (i : Instr) (p : Phase) : Option Phase := successor p (phasesOf i)

end Sys2Proof.Machine
end

