-- ==== Sys2Proof/Machine/Flags.lean ====
section
/-! DEFINITION. The codes and register words the host sees (spec 10_state.md R32 to R45, 60_exceptions.md R301), the bit
view of a record's flags byte (R56), and every change a command makes to STATUS (60_exceptions.md R305, R306). -/

namespace Sys2Proof.Machine

/-! ## Codes -/

/-- The 4-bit code of STATUS.ERR (60_exceptions.md R301). -/
def errCode : ErrCode → Nat
  | .none => 0
  | .transport => 1
  | .tooMuchData => 2
  | .notAcknowledged => 3
  | .badResponse => 4
  | .badChecksum => 5
  | .bufferUnderflow => 6
  | .syntaxErr => 7
  | .notFormatted => 10
  | .underflowHeader => 11
  | .underflowPayload => 12
  | .utf8 => 13
  | .illegalCommand => 15

/-- The 3-bit code of STATUS.PHASE (42_handshake.md R191). -/
def phaseCode : Phase → Nat
  | .idle => 0
  | .send => 1
  | .wait1 => 2
  | .ack => 3
  | .wait2 => 4
  | .recv => 5

/-- The 2-bit code of NSTATE.STATE (10_state.md R37). -/
def nstateCode : NState → Nat
  | .fresh => 0
  | .reading => 1
  | .complete => 2

/-- The 3-bit code of NITEM.KIND (10_state.md R40). -/
def kindCode : RecKind → Nat
  | .empty => 0
  | .wellKnown => 1
  | .mimeMedia => 2
  | .absoluteUri => 3
  | .external => 4
  | .unknown => 5
  | .unexpected => 6

/-! ## Register words (reserved bits read 0, R45) -/

/-- STATUS as the host reads it (R34). -/
def statusWord (t : Status) : Word :=
  BitVec.ofNat 32 (t.busy.toNat + t.done.toNat * 2 + errCode t.err * 2 ^ 4 + phaseCode t.phase * 2 ^ 8
    + t.lastop.toNat * 2 ^ 12)

/-- RESULT as the host reads it (R35). -/
def resultWord (r : ResultReg) : Word :=
  BitVec.ofNat 32 (r.rcmd.toNat + r.rplen.toNat * 2 ^ 8 + r.rvalid.toNat * 2 ^ 17)

/-- NSTATE as the host reads it (R37). -/
def nstateWord (n : NState) : Word := BitVec.ofNat 32 (nstateCode n)

/-- NITEM as the host reads it (R40). -/
def itemWord : Item → Word
  | .none => 0
  | .record kind flags => BitVec.ofNat 32 (1 + kindCode kind * 2 ^ 4 + flags.toNat * 2 ^ 8)
  | .error => 2
  | .endItem => 3

/-- A 20-bit register as the host reads it: bits 31:20 read 0 (R38, R39, R41 to R43). -/
def offsetWord (v : BitVec 20) : Word := v.setWidth 32

/-- A length or offset stored into a 20-bit register (R38). -/
def toReg20 (n : Nat) : BitVec 20 := BitVec.ofNat 20 n

/-! ## RecordHeaderFlags (R56) -/

/-- TNF, bits 2:0. -/
def tnf (f : Byte) : Nat := f.toNat % 8
/-- IL, bit 3: an id length is present. -/
def flagIL (f : Byte) : Bool := f.getLsbD 3
/-- SR, bit 4: short record. -/
def flagSR (f : Byte) : Bool := f.getLsbD 4
/-- CF, bit 5: chunk; recognised and without effect (44_ndef_parser.md R277). -/
def flagCF (f : Byte) : Bool := f.getLsbD 5
/-- ME, bit 6: message end. -/
def flagME (f : Byte) : Bool := f.getLsbD 6
/-- MB, bit 7: message begin; recognised and without effect (R277). -/
def flagMB (f : Byte) : Bool := f.getLsbD 7

/-! ## STATUS updates (60_exceptions.md R305) -/

/-- `Accept`: LASTOP is `w[3:0]`, DONE and ERR cleared, PHASE IDLE; BUSY set if `busy` and otherwise left. -/
def acceptStatus (w : Word) (busy : Bool) (t : Status) : Status where
  busy := busy || t.busy
  done := false
  err := .none
  phase := .idle
  lastop := w.setWidth 4

/-- `finish()`: BUSY 0, DONE 1, ERR 0, PHASE IDLE. -/
def finishStatus (t : Status) : Status where
  busy := false
  done := true
  err := .none
  phase := .idle
  lastop := t.lastop

/-- `raise E`: BUSY 0, DONE 1, ERR E, PHASE unchanged (R306). -/
def raiseStatus (e : ErrCode) (t : Status) : Status where
  busy := false
  done := true
  err := e
  phase := t.phase
  lastop := t.lastop

end Sys2Proof.Machine
end

