-- ==== Sys2Proof/Machine/Ops.lean ====
section
/-! DEFINITION. The operations every command is made of: sequencing of outcomes, the byte memories (spec 10_state.md R47 to
R50), acceptance and the two ways a command ends (60_exceptions.md R305), the transport port (20_memory.md R95 to R99),
the free values (93_implementation_defined.md), and reset (70_reset_and_hazards.md R340 to R343). -/

namespace Sys2Proof.Machine

/-- What a step or part of a step answers. -/
abbrev Result (α : Type) := Host.Outcome α Fault Refusal

/-- Run `k` on the value of `o`, or stop as `o` stops. -/
def andThen {α β : Type} (o : Result α) (k : α → Result β) : Result β :=
  match o with
  | .next a => k a
  | .fault f => .fault f
  | .refused r => .refused r

/-- The value of a next outcome. -/
def next? {α : Type} : Result α → Option α
  | .next a => some a
  | .fault _ => none
  | .refused _ => none

/-- The reason of a fault. -/
def fault? {α : Type} : Result α → Option Fault
  | .next _ => none
  | .fault f => some f
  | .refused _ => none

/-- The reason of a refusal. -/
def refused? {α : Type} : Result α → Option Refusal
  | .next _ => none
  | .fault _ => none
  | .refused r => some r

/-! ## Byte memories (R14, R47 to R50) -/

/-- The byte at offset `a`; none when its written mark is clear (R50). -/
def readByte : Memory → Nat → Option Byte
  | [], _ => none
  | (k, b) :: rest, a => if k = a then some b else readByte rest a

/-- Store `b` at offset `a` and set its written mark, keeping the offsets rising. -/
def writeByte : Memory → Nat → Byte → Memory
  | [], a, b => [(a, b)]
  | (k, v) :: rest, a, b =>
    if a < k then (a, b) :: (k, v) :: rest
    else if a = k then (a, b) :: rest
    else (k, v) :: writeByte rest a b

/-- `MemWrite(M, a, s)` (R14): byte `k` of `s` goes to offset `a + k`. -/
def writeBytes (m : Memory) (a : Nat) : List Byte → Memory
  | [] => m
  | b :: rest => writeBytes (writeByte m a b) (a + 1) rest

/-- `MemRead(M, a, n)` (R14): the bytes `M[a..a+n)`; none when one of them is unwritten. -/
def readBytes (m : Memory) (a : Nat) : Nat → Option (List Byte)
  | 0 => some []
  | n + 1 =>
    match readByte m a with
    | none => none
    | some b =>
      match readBytes m (a + 1) n with
      | none => none
      | some rest => some (b :: rest)

/-- A value that must have been written: its absence is the fault `f` (R16, R50). -/
def written {α : Type} (f : Fault) : Option α → Result α
  | some a => .next a
  | none => .fault f

/-- The bytes of a memory a host access may name (20_memory.md R88). -/
def spaceCap (cfg : Config) : Space → Nat
  | .scr => cfg.bufCap
  | .stg => cfg.bufCap - 10
  | .nin => cfg.ninCap

/-! ## Acceptance and finishing (60_exceptions.md R305) -/

/-- A command word is accepted only while STATUS.BUSY = 0; otherwise the write is refused (70_reset_and_hazards.md R352). -/
def whenIdle (s : State) (k : Result State) : Result State :=
  if s.status.busy then .refused .busyWrite else k

/-- The part of `Accept` every accepted word has, legal or not: CMD, LASTOP, DONE, ERR, PHASE. -/
def acceptWord (w : Word) (busy : Bool) (s : State) : State :=
  { s with cmd := w, status := acceptStatus w busy s.status }

/-- `Accept(op)` of a legal word, and the latching of its operands (10_state.md R53). -/
def accept (i : Instr) (s : State) : State :=
  { acceptWord (encode i) (usesTransport i) s with
    terrinfo := if usesTransport i then 0 else s.terrinfo
    result := if clearsResult i then { rcmd := 0, rplen := 0, rvalid := false } else s.result
    latch := some { instr := i, payload := [] } }

/-- `finish()`: the command ends without error; its latched operands are given up (R53). -/
def finish (s : State) : State :=
  { s with status := finishStatus s.status, latch := none }

/-- `raise E`: THE error entry of the block (R305 to R308). The command ends with code `e`, PHASE keeps the phase the
error was raised in, no state is saved and control goes nowhere. -/
def raiseErr (e : ErrCode) (s : State) : State :=
  { s with status := raiseStatus e s.status, latch := none }

/-- An illegal word is accepted and finishes at once with ILLEGAL_COMMAND, with no other effect (R311). -/
def acceptIllegal (w : Word) (s : State) : Result State :=
  whenIdle s (.next (raiseErr .illegalCommand (acceptWord w false s)))

/-- `STATUS.PHASE <- p`. -/
def setPhase (p : Phase) (s : State) : State :=
  { s with status := { s.status with phase := p } }

/-! ## The transport port (20_memory.md R92, R95 to R99) -/

/-- Issue a transport call: it is pending until the transport completes it. -/
def issue (c : Call) (s : State) : State := { s with pending := some c }

/-- The pending call has been completed. -/
def takeCall (s : State) : State := { s with pending := none }

/-- `TERRINFO <- info; raise TRANSPORT` (60_exceptions.md R303). -/
def failTransport (info : Word) (s : State) : State :=
  raiseErr .transport { s with terrinfo := info }

/-! ## Memory writes and latching by the block -/

/-- Latch the payload read at acceptance (10_state.md R53, 20_memory.md R87). -/
def latchPayload (p : List Byte) (s : State) : State :=
  { s with latch := s.latch.map fun l => { l with payload := p } }

/-- `MemWrite(SCR, 0, bytes)`. -/
def writeScr (bytes : List Byte) (s : State) : State :=
  { s with scr := writeBytes s.scr 0 bytes }

/-- `ACKCAP <- bytes`. -/
def setAckcap (bytes : List Byte) (s : State) : State := { s with ackcap := some bytes }

/-- `RESULT <- {RCMD, RPLEN, RVALID = 1}` (41_frame_codec.md R166). -/
def setResult (rcmd : Byte) (rplen : Nat) (s : State) : State :=
  { s with result := { rcmd := rcmd, rplen := BitVec.ofNat 9 rplen, rvalid := true } }

/-! ## Free values (log 6) -/

/-- The next `n` drawn bytes, `d` of them having been drawn before. -/
def drawnBytes (d n : Nat) : List Byte := (List.range n).map fun k => Config.freeByte (d + k)

/-- `n` values have been drawn. -/
def countDraws (n : Nat) (s : State) : State := { s with draws := s.draws + n }

/-! ## Reset (70_reset_and_hazards.md R340 to R343) -/

/-- The reset input: every register, memory, mark and the pending call as R58 says, whatever was in progress. The
parameters and the model's own fields stay (log 20). -/
def resetBlock (s : State) : State :=
  { State.resetWith s.cfg with draws := s.draws, hostRead := s.hostRead, events := s.events }

end Sys2Proof.Machine
end

