-- ==== Sys2Proof/Machine/FrameCodec.lean ====
section
/-! DEFINITION. The frame codec unit (spec 41_frame_codec.md): building outbound frames, the ACK check, the validation of
inbound frames in its fixed order, the phases SEND, ACK and RECV up to their transport call, and the commands PACK, RDACK
and RDRESP. What a completed call does is in `Machine/Handshake.lean`. -/

namespace Sys2Proof.Machine

/-! ## Outbound frames (R140 to R144) -/

/-- TFI_OUT, host to device (00_scope.md R11). -/
def tfiOut : Byte := 0xD4

/-- TFI_IN, device to host (00_scope.md R11). -/
def tfiIn : Byte := 0xD5

/-- `BuildFrame(c, P)` (R142), laid out as R140's table. -/
def buildFrame (cb : Byte) (p : List Byte) : List Byte :=
  let len : Byte := BitVec.ofNat 8 (2 + p.length)
  [0x00, 0x00, 0xFF, len, neg8 len, tfiOut, cb] ++ p ++ [neg8 (sum8 ([tfiOut, cb] ++ p)), 0x00]

/-- `PhaseSend(c, PLEN)` up to its suspension point (R143): the capacity check, one read of STG, the frame built in SCR
and offered to the transport. -/
def phaseSend (cb : Byte) (plen : Nat) (s : State) : Result State :=
  if plen > s.cfg.bufCap - 10 then .next (raiseErr .tooMuchData (setPhase .send s))
  else
    andThen (written .unwrittenStage (readBytes s.stg 0 plen)) fun p =>
      .next (issue (.send (buildFrame cb p)) (writeScr (buildFrame cb p) (latchPayload p (setPhase .send s))))

/-! ## The ACK (R150 to R152) -/

/-- `PhaseAck()` up to its suspension point (R152). -/
def phaseAck (s : State) : State := issue (.recv 6) (setPhase .ack s)

/-! ## Inbound frames (R160 to R171) -/

/-- The receive window of an expected payload length, `W = RLEN + 9` (R160, 00_scope.md R11). -/
def recvWindow (rlen : Nat) : Nat := rlen + 9

/-- `PhaseRecv(RLEN)` up to its suspension point (R162). -/
def phaseRecv (rlen : Nat) (s : State) : State := issue (.recv (recvWindow rlen)) (setPhase .recv s)

/-- `ValidateFrame(W)` over the received bytes `b`, `W = |b|` (R163): the checks V1 to V7 in this order, the first
failure answered; on success the echoed command and the payload length. Every offset read lies inside `b`, whose length
is at least 9 (R171). -/
def validateFrame (b : List Byte) : Except ErrCode (Byte × Nat) :=
  let len := (at8 b 3).toNat
  if at8 b 0 ≠ 0x00 ∨ at8 b 1 ≠ 0x00 ∨ at8 b 2 ≠ 0xFF then .error .badResponse
  else if at8 b 3 + at8 b 4 ≠ 0 then .error .badChecksum
  else if len = 0 then .error .badResponse
  else if len = 1 then .error .syntaxErr
  else if 5 + len + 1 ≥ b.length then .error .bufferUnderflow
  else if at8 b (5 + len + 1) ≠ 0x00 then .error .badResponse
  else if at8 b 5 ≠ tfiIn then .error .badResponse
  else if sum8 (slice b 5 (5 + len + 1)) ≠ 0 then .error .badChecksum
  else .ok (at8 b 6, len - 2)

/-! ## Commands -/

/-- PACK cb, plen (R141). -/
def execPack (cb : Byte) (plen : Nat) (s : State) : Result State :=
  whenIdle s (phaseSend cb plen (accept (.pack cb plen) s))

/-- RDACK (R151). -/
def execRdack (s : State) : Result State :=
  whenIdle s (.next (phaseAck (accept .rdack s)))

/-- RDRESP rlen (R161): a response the buffer cannot hold is refused before acceptance has any effect. -/
def execRdresp (rlen : Nat) (s : State) : Result State :=
  whenIdle s
    (if recvWindow rlen > s.cfg.bufCap then .refused .responseTooLong
    else .next (phaseRecv rlen (accept (.rdresp rlen) s)))

end Sys2Proof.Machine
end

