-- ==== Sys2Proof/Machine/Handshake.lean ====
section
/-! DEFINITION. The handshake sequencer (spec 42_handshake.md): the order of phases (R193), what the completion of the
pending transport call does (R190; R143, R152, R162 and R194 after their suspension point), and the commands WAITRDY,
REQUEST and SEND. -/

namespace Sys2Proof.Machine

/-- `PhaseWait(k)` up to its suspension point (R194); `k` is WAIT1 or WAIT2. -/
def phaseWait (k : Phase) (s : State) : State := issue .wait (setPhase k s)

/-- Enter a phase that follows another one (R193). IDLE and SEND follow none in R193's table, so the first two arms are
never taken (log 23). -/
def enterPhase (p : Phase) (i : Instr) (s : State) : State :=
  match p with
  | .idle => finish s
  | .send => finish s
  | .wait1 => phaseWait .wait1 s
  | .ack => phaseAck s
  | .wait2 => phaseWait .wait2 s
  | .recv => phaseRecv (rlenOf i) s

/-- The current phase finished without error: enter the next phase of the command's row, or finish (R193). -/
def advance (i : Instr) (s : State) : State :=
  match nextPhase i s.status.phase with
  | none => finish s
  | some p => enterPhase p i s

/-- The ACK read completed with 6 bytes (R152): keep them in ACKCAP; they must equal ACK_FRAME. -/
def ackReceived (b : List Byte) (i : Instr) (s : State) : State :=
  if b ≠ s.cfg.ackFrame then raiseErr .notAcknowledged (setAckcap b s) else advance i (setAckcap b s)

/-- The response read completed (R162): the bytes go to SCR, are validated in the same step, and on success RESULT
describes the frame. -/
def frameReceived (b : List Byte) (i : Instr) (s : State) : State :=
  match validateFrame b with
  | .error e => raiseErr e (writeScr b s)
  | .ok (rcmd, rplen) => advance i (setResult rcmd rplen (writeScr b s))

/-- A receive completed with its `n` bytes: the phase says where they go. -/
def bytesReceived (b : List Byte) (i : Instr) (s : State) : State :=
  if s.status.phase = .ack then ackReceived b i s else frameReceived b i s

/-- A receive of `n` bytes failed: its destination holds `n` drawn bytes (R152, R162), TERRINFO the transport's info, and
the command ends with TRANSPORT. -/
def receiveFailed (n : Nat) (info : Word) (s : State) : State :=
  let drawn := drawnBytes s.draws n
  failTransport info
    (countDraws n (if s.status.phase = .ack then setAckcap drawn s else writeScr drawn s))

/-- The completion `c` of the call `call` of the command `i` (R190). The call is no longer pending in `s`. -/
def completeCall (call : Call) (c : Completion) (i : Instr) (s : State) : Result State :=
  match call, c with
  | .send _, .ok => .next (advance i s)
  | .wait, .ok => .next (advance i s)
  | .recv n, .okBytes b => if b.length = n then .next (bytesReceived b i s) else .refused .badCompletion
  | .send _, .fail info => .next (failTransport info s)
  | .wait, .fail info => .next (failTransport info s)
  | .recv n, .fail info => .next (receiveFailed n info s)
  | .send _, .okBytes _ => .refused .badCompletion
  | .wait, .okBytes _ => .refused .badCompletion
  | .recv _, .ok => .refused .badCompletion

/-- The transport completes the pending call: the transport's step and the block's completion step are one (R190,
70_reset_and_hazards.md R372). With no call pending nothing is delivered (20_memory.md R99, log 11). -/
def complete (c : Completion) (s : State) : Result State :=
  match s.pending, s.latch with
  | none, none => .next s
  | none, some _ => .next s
  | some _, none => .next s
  | some call, some l => completeCall call c l.instr (takeCall s)

/-! ## Commands -/

/-- WAITRDY (R200). -/
def execWaitrdy (s : State) : Result State :=
  whenIdle s (.next (phaseWait .wait1 (accept .waitrdy s)))

/-- REQUEST cb, plen, rlen (R201): a response the buffer cannot hold is refused before acceptance has any effect. -/
def execRequest (cb : Byte) (plen rlen : Nat) (s : State) : Result State :=
  whenIdle s
    (if recvWindow rlen > s.cfg.bufCap then .refused .responseTooLong
    else phaseSend cb plen (accept (.request cb plen rlen) s))

/-- SEND cb, plen (R202). -/
def execSend (cb : Byte) (plen : Nat) (s : State) : Result State :=
  whenIdle s (phaseSend cb plen (accept (.send cb plen) s))

end Sys2Proof.Machine
end

