-- ==== Sys2Proof/Machine/Utf8.lean ====
section
/-! DEFINITION. Well-formed UTF-8 (spec 44_ndef_parser.md R278). PRESUMED (log 5): the spec marks the table as general
knowledge. -/

namespace Sys2Proof.Machine

/-- `lo..hi` of R278's table. -/
def inRange (lo hi : Nat) (b : Byte) : Bool := decide (lo ≤ b.toNat) && decide (b.toNat ≤ hi)

/-- What the bytes of a sequence begun must look like: each range is that of the next byte, and `tail` further bytes
80..BF follow it. -/
inductive Utf8Expect where
  /-- between sequences -/
  | start
  /-- the next byte lies in `lo..hi`, and then come `tail` bytes 80..BF -/
  | cont (lo hi tail : Nat)
  deriving DecidableEq, Repr

/-- What follows the first byte of a sequence (R278's nine rows); none where no row has that first byte. -/
def utf8Lead (b : Byte) : Option Utf8Expect :=
  if inRange 0x00 0x7F b then some .start
  else if inRange 0xC2 0xDF b then some (.cont 0x80 0xBF 0)
  else if inRange 0xE0 0xE0 b then some (.cont 0xA0 0xBF 1)
  else if inRange 0xE1 0xEC b then some (.cont 0x80 0xBF 1)
  else if inRange 0xED 0xED b then some (.cont 0x80 0x9F 1)
  else if inRange 0xEE 0xEF b then some (.cont 0x80 0xBF 1)
  else if inRange 0xF0 0xF0 b then some (.cont 0x90 0xBF 2)
  else if inRange 0xF1 0xF3 b then some (.cont 0x80 0xBF 2)
  else if inRange 0xF4 0xF4 b then some (.cont 0x80 0x8F 2)
  else none

/-- What is expected after `b`; none where `b` is not allowed. -/
def utf8Step (e : Utf8Expect) (b : Byte) : Option Utf8Expect :=
  match e with
  | .start => utf8Lead b
  | .cont lo hi 0 => if inRange lo hi b then some .start else none
  | .cont lo hi (tail + 1) => if inRange lo hi b then some (.cont 0x80 0xBF tail) else none

/-- Whether the bytes, read from expectation `e` on, end between sequences. -/
def utf8From (e : Utf8Expect) : List Byte → Bool
  | [] => decide (e = .start)
  | b :: rest =>
    match utf8Step e b with
    | none => false
    | some e' => utf8From e' rest

/-- `utf8(s)` (R278). -/
def utf8 (s : List Byte) : Bool := utf8From .start s

end Sys2Proof.Machine
end

