-- ==== Sys2Proof/Machine/Ndef.lean ====
section
/-! DEFINITION. The NDEF TLV record parser (spec 44_ndef_parser.md) and its commands NBEGIN and NNEXT. It makes no transport
call and touches neither SCR nor STG (R250, R256). -/

namespace Sys2Proof.Machine

/-! ## Reading the input -/

/-- `byte(i)` (R252): none is ABSENT, which equals no byte value; an unwritten byte of the input is a fault. -/
def inputByte (s : State) (i : Nat) : Result (Option Byte) :=
  if i < s.nlen.toNat then andThen (written .unwrittenInput (readByte s.nin i)) fun b => .next (some b)
  else .next none

/-- `NIN[a..a+n)`, a range a length check has put inside the input (R252). -/
def inputBytes (s : State) (a n : Nat) : Result (List Byte) :=
  written .unwrittenInput (readBytes s.nin a n)

/-- `rem(cur)` (R253). -/
def remaining (s : State) (cur : Nat) : Nat := s.nlen.toNat - cur

/-! ## Output (R254) -/

/-- The six record registers at 0. -/
def clearRecord (s : State) : State :=
  { s with nrecOff := 0, nrecLen := 0, ntypeOff := 0, ntypeLen := 0, nvalOff := 0, nvalLen := 0 }

/-- `OutError(E)`: an ERROR item, COMPLETE, `raise E`. -/
def outError (e : ErrCode) (s : State) : State :=
  raiseErr e { clearRecord s with nitem := .error, nstate := .complete }

/-- `OutEnd()`: an END item, COMPLETE, `finish()`. -/
def outEnd (s : State) : State :=
  finish { clearRecord s with nitem := .endItem, nstate := .complete }

/-- A record's header and where it stands (R264 to R268). -/
structure Record where
  /-- the cursor: the offset of the flags byte -/
  cur : Nat
  flags : Byte
  hlen : Nat
  tlen : Nat
  plen : Nat
  idlen : Nat
  deriving DecidableEq, Repr

/-- `total = hlen + tlen + plen + idlen`, without overflow (R267). -/
def recTotal (r : Record) : Nat := r.hlen + r.tlen + r.plen + r.idlen

/-- `tOff` (R268). -/
def recTypeOff (r : Record) : Nat := r.cur + r.hlen

/-- `vOff` (R268): after the type and the id, which no rule reads. -/
def recValOff (r : Record) : Nat := r.cur + r.hlen + r.tlen + r.idlen

/-- `OutRecord` (R254), the advance of the cursor (R273) and the message-end stop (R274), then `finish()`. -/
def outRecord (kind : RecKind) (r : Record) (s : State) : State :=
  let mime := decide (kind = .mimeMedia)
  finish
    { s with
      ncur := toReg20 (r.cur + recTotal r)
      nstate := if flagME r.flags then .complete else s.nstate
      nitem := .record kind r.flags
      nrecOff := toReg20 r.cur
      nrecLen := toReg20 (recTotal r)
      ntypeOff := if mime then toReg20 (recTypeOff r) else 0
      ntypeLen := if mime then toReg20 r.tlen else 0
      nvalOff := if mime then toReg20 (recValOff r) else 0
      nvalLen := if mime then toReg20 r.plen else 0 }

/-! ## One record (R259, R264 to R274) -/

/-- `hlen` (R265). -/
def headerLen (f : Byte) : Nat := 2 + (if flagSR f then 1 else 4) + (if flagIL f then 1 else 0)

/-- `plen` (R266): one byte of a short record, else big-endian. -/
def readPlen (f : Byte) (cur : Nat) (s : State) : Result Nat :=
  if flagSR f then andThen (inputBytes s (cur + 2) 1) fun b => .next (at8 b 0).toNat
  else andThen (inputBytes s (cur + 2) 4) fun b => .next (be32 (at8 b 0) (at8 b 1) (at8 b 2) (at8 b 3))

/-- `idlen` (R266): present only if IL is set. -/
def readIdlen (f : Byte) (cur : Nat) (s : State) : Result Nat :=
  if flagIL f then
    andThen (written .unwrittenInput (readByte s.nin (cur + headerLen f - 1))) fun b => .next b.toNat
  else .next 0

/-- The header fields at `cur` (R266), the header lying inside the input. -/
def readHeader (f : Byte) (cur : Nat) (s : State) : Result Record :=
  andThen (written .unwrittenInput (readByte s.nin (cur + 1))) fun tlen =>
    andThen (readPlen f cur s) fun plen =>
      andThen (readIdlen f cur s) fun idlen =>
        .next { cur := cur, flags := f, hlen := headerLen f, tlen := tlen.toNat, plen := plen, idlen := idlen }

/-- A MIME record (R270): both regions must be UTF-8. Both are read before either is judged (log 10). -/
def mimeBody (r : Record) (s : State) : Result State :=
  andThen (inputBytes s (recTypeOff r) r.tlen) fun ty =>
    andThen (inputBytes s (recValOff r) r.plen) fun val =>
      if utf8 ty && utf8 val then .next (outRecord .mimeMedia r s) else .next (outError .utf8 s)

/-- The record body by TNF (R269 to R272, R275). -/
def recordBody (r : Record) (s : State) : Result State :=
  match tnf r.flags with
  | 0 => .next (outRecord .empty r s)
  | 2 => mimeBody r s
  | 5 => .next (outRecord .unknown r s)
  | _ => .next (outRecord .unexpected r s)

/-- `RecordStep()` (R274). -/
def recordStep (s : State) : Result State :=
  let cur := s.ncur.toNat
  if remaining s cur = 0 then .next (outEnd s)
  else
    andThen (written .unwrittenInput (readByte s.nin cur)) fun f =>
      if remaining s cur < headerLen f then .next (outError .underflowHeader s)
      else
        andThen (readHeader f cur s) fun r =>
          if remaining s cur < recTotal r then .next (outError .underflowPayload s) else recordBody r s

/-! ## The fresh step (R260 to R263) -/

/-- The NDEF content starts at `off`: `NCUR <- off; NSTATE.STATE <- READING` (R261). -/
def startReading (off : Nat) (s : State) : State := { s with ncur := toReg20 off, nstate := .reading }

/-- No NDEF TLV found (R262). -/
def noTlv (s : State) : Result State :=
  match s.cfg.noTlvAction with
  | .endItem => .next (outEnd s)
  | .refuse => .refused .noTlvFound

/-- Whether the `n` bytes from `i` on are all 0xFF (R260). A byte is read only if all before it are 0xFF, so the TLV
length byte at offset 1 is not read when byte 0 is 0x03 (R263, log 10). -/
def blankFrom (i n : Nat) (s : State) : Result Bool :=
  match n with
  | 0 => .next true
  | n + 1 => andThen (inputByte s i) fun b => if b = some 0xFF then blankFrom (i + 1) n s else .next false

/-- Where the NDEF content starts on a tag that is not blank (R261), and R262 where it starts nowhere. -/
def findContent (s : State) : Result State :=
  andThen (inputByte s 0) fun b0 =>
    if b0 = some 0x03 then recordStep (startReading 2 s)
    else
      andThen (inputByte s 5) fun b5 =>
        if b5 = some 0x03 then recordStep (startReading 7 s) else noTlv s

/-- `FreshStep()`: the blank-tag check (R260), then the start of the NDEF content (R261, R262). -/
def freshStep (s : State) : Result State :=
  andThen (blankFrom 0 4 s) fun blank => if blank then .next (outError .notFormatted s) else findContent s

/-! ## Commands -/

/-- NBEGIN nlen (R257): bind an input, discarding any parse in progress; no NIN byte is read. -/
def execNbegin (nlen : Nat) (s : State) : Result State :=
  whenIdle s
    (if nlen > s.cfg.ninCap then .refused .inputTooLong
    else
      .next (finish
        { clearRecord (accept (.nbegin nlen) s) with
          nlen := toReg20 nlen, ncur := 0, nstate := .fresh, nitem := .none }))

/-- One item of the sequence, by NSTATE.STATE (R258). -/
def nextItem (s : State) : Result State :=
  match s.nstate with
  | .complete => .next (outEnd s)
  | .fresh => freshStep s
  | .reading => recordStep s

/-- NNEXT (R258). -/
def execNnext (s : State) : Result State := whenIdle s (nextItem (accept .nnext s))

end Sys2Proof.Machine
end

