-- ==== Sys2Proof/Machine/Dispatch.lean ====
section
/-! DEFINITION. The acceptance step of each command: one arm per constructor of Instr (spec 30_encoding.md R115). -/

namespace Sys2Proof.Machine

def exec (i : Instr) (s : State) : Host.Outcome State Fault Refusal :=
  match i with
  | .pack cb plen => Sys2Proof.Machine.execPack cb plen s
  | .waitrdy => Sys2Proof.Machine.execWaitrdy s
  | .rdack => Sys2Proof.Machine.execRdack s
  | .rdresp rlen => Sys2Proof.Machine.execRdresp rlen s
  | .request cb plen rlen => Sys2Proof.Machine.execRequest cb plen rlen s
  | .send cb plen => Sys2Proof.Machine.execSend cb plen s
  | .nbegin nlen => Sys2Proof.Machine.execNbegin nlen s
  | .nnext => Sys2Proof.Machine.execNnext s

end Sys2Proof.Machine
end

