-- ==== Sys2Proof/Machine/HostPort.lean ====
section
/-! DEFINITION. The host's accesses to the register window and the memories (spec 10_state.md R32 to R50, 20_memory.md R82
to R91, 70_reset_and_hazards.md R351 to R353). -/

namespace Sys2Proof.Machine

/-! ## The register window -/

/-- The register at byte offset `off` as a word (10_state.md R32); 0 where there is no register: offsets 0x38 and
above, and offsets not a multiple of 4 (R44). -/
def windowWord (s : State) (off : Nat) : Word :=
  match off with
  | 0x00 => s.cmd
  | 0x04 => statusWord s.status
  | 0x08 => resultWord s.result
  | 0x0C => s.terrinfo
  | 0x10 => nstateWord s.nstate
  | 0x14 => offsetWord s.ncur
  | 0x18 => offsetWord s.nlen
  | 0x1C => itemWord s.nitem
  | 0x20 => offsetWord s.nrecOff
  | 0x24 => offsetWord s.nrecLen
  | 0x28 => offsetWord s.ntypeOff
  | 0x2C => offsetWord s.ntypeLen
  | 0x30 => offsetWord s.nvalOff
  | 0x34 => offsetWord s.nvalLen
  | _ => 0

/-- A host read of the window, a whole word (R82). A read of RESULT while BUSY is a draw (20_memory.md R91, log 7). -/
def readReg (width : Width) (off : Nat) (s : State) : Result State :=
  match width with
  | .byte => .refused .narrowAccess
  | .half => .refused .narrowAccess
  | .word =>
    if off = 0x08 ∧ s.status.busy = true then
      .next (countDraws 1 { s with hostRead := .word (Config.freeWord s.draws) })
    else .next { s with hostRead := .word (windowWord s off) }

/-- A word written to CMD (30_encoding.md R115): a legal word is performed, an illegal one finishes at once with
ILLEGAL_COMMAND; while BUSY either is refused (70_reset_and_hazards.md R352). -/
def writeCmd (w : Word) (s : State) : Result State :=
  match decode w with
  | .ok i => exec i s
  | .error _ => acceptIllegal w s

/-- A host write to the window (R82): only CMD takes one, every other offset ignores it (10_state.md R44). -/
def writeReg (width : Width) (off : Nat) (value : Word) (s : State) : Result State :=
  match width with
  | .byte => .refused .narrowAccess
  | .half => .refused .narrowAccess
  | .word => if off = 0x00 then writeCmd value s else .next s

/-! ## The memories -/

/-- The contents of a memory. -/
def spaceMem (s : State) : Space → Memory
  | .scr => s.scr
  | .stg => s.stg
  | .nin => s.nin

/-- The fault of reading an unwritten byte (R50; for the host's reads of STG and NIN, log 9). -/
def unwrittenFault : Space → Fault
  | .scr => .unwrittenScratch
  | .stg => .unwrittenStage
  | .nin => .unwrittenInput

/-- A host read of one byte: out of range it is refused (R88), SCR while BUSY is a draw (R91), an unwritten byte is a
fault (R50). DESIGN CHOICE (log 28): an unwritten SCR byte read while BUSY is a draw, not the fault; the spec does not
say which of R91 and R50 holds there. -/
def readMem (space : Space) (off : Nat) (s : State) : Result State :=
  if off ≥ spaceCap s.cfg space then .refused .outOfRange
  else if space = .scr ∧ s.status.busy = true then
    .next (countDraws 1 { s with hostRead := .byte (Config.freeByte s.draws) })
  else
    andThen (written (unwrittenFault space) (readByte (spaceMem s space) off)) fun b =>
      .next { s with hostRead := .byte b }

/-- A host write of one byte: out of range it is refused (R88); SCR ignores it (R47); STG takes it; NIN takes it unless
a parse is under way (R353). -/
def writeMem (space : Space) (off : Nat) (value : Byte) (s : State) : Result State :=
  if off ≥ spaceCap s.cfg space then .refused .outOfRange
  else
    match space with
    | .scr => .next s
    | .stg => .next { s with stg := writeByte s.stg off value }
    | .nin =>
      if s.nstate = .complete then .next { s with nin := writeByte s.nin off value }
      else .refused .inputWriteDuringParse

/-- One host step (10_state.md R30). -/
def hostStep (a : HostAction) (s : State) : Result State :=
  match a with
  | .readReg width off => readReg width off s
  | .writeReg width off value => writeReg width off value s
  | .readMem space off => readMem space off s
  | .writeMem space off value => writeMem space off value s

end Sys2Proof.Machine
end

