-- ==== Sys2Proof/Machine/Events.lean ====
section
/-! DEFINITION. One step of one agent, and runs of them (spec 10_state.md R30, 20_memory.md R90, R99; 70_reset_and_hazards.md
R340 to R343). -/

namespace Sys2Proof.Machine

/-- What an event does. -/
def stepEvent (e : Event) (s : State) : Result State :=
  match e with
  | .host a => hostStep a s
  | .transport c => complete c s
  | .late _ => .next s
  | .reset => .next (resetBlock s)

/-- The events in order, stopping at the first fault or refusal. -/
def runEvents : List Event → State → Result State
  | [], s => .next s
  | e :: rest, s => andThen (stepEvent e s) (runEvents rest)

/-- The next agent's step: take the next event and perform it. With none to come no agent moves (log 1), so a call the
transport never completes leaves the block as it is (42_handshake.md R199). -/
def nextEvent (s : State) : Result State :=
  match s.events with
  | [] => .next s
  | e :: rest => stepEvent e { s with events := rest }

/-- The host writes the word `w` to CMD. -/
def cmdWrite (w : Word) : Event := .host (.writeReg .word 0x00 w)

/-- `s` with the host about to write to CMD the word whose low `nbits` bits are those of `w`, the rest 0 (log 16). -/
def placeCommand (nbits w : Nat) (s : State) : State :=
  { s with events := cmdWrite (BitVec.ofNat 32 (w % 2 ^ nbits)) :: s.events }

end Sys2Proof.Machine
end

