-- ==== Sys2Proof/Machine/Step.lean ====
section
/-! DEFINITION. The step function, and how an instruction's word is placed where the next step takes it. -/

namespace Sys2Proof.Machine

/-- One step of the agent that moves next (`nextEvent`). -/
def step (s : State) : Host.Outcome State Fault Refusal := nextEvent s

/-- `s` with the word `w` placed so that the very next step accepts it as a command: the block fetches nothing
(10_state.md R54), a command comes from the host's write to CMD (log 16). -/
def State.withFetchWord (s : State) (nbits w : Nat) : State := placeCommand nbits w s

end Sys2Proof.Machine
end

