-- ==== Sys2Proof/Machine/Pseudo.lean ====
section
/-! DEFINITION. Sequences of commands: the pseudo-instructions HANDSHAKE and NOTIFY (spec 30_encoding.md R120, R121), and
programs of host actions and commands (R119). The host's polling and the transport's answers are given as a script of
completions, taken in order (95_test_vectors.md, conventions). -/

namespace Sys2Proof.Machine

/-- The transport answers from the script while a command is in progress; the state in which none is, or the script is
used up, and what is left of the script. -/
def serve : List Completion → State → Result (State × List Completion)
  | [], s => .next (s, [])
  | c :: rest, s => if s.status.busy then andThen (complete c s) (serve rest) else .next (s, c :: rest)

/-- The calls the transport sees from `s` on while it answers from the script: the pending call, then those the block
issues as the earlier ones complete (42_handshake.md R203). -/
def callsSeen : List Completion → State → List Call
  | [], s => s.pending.toList
  | c :: rest, s =>
    match s.pending, complete c s with
    | some call, .next s' => call :: callsSeen rest s'
    | some call, .fault _ => [call]
    | some call, .refused _ => [call]
    | none, _ => []

/-- The transport calls of a command whose payload is `p`, in order: the third column of 42_handshake.md R193. -/
def callRow (p : List Byte) : Instr → List Call
  | .pack cb _ => [.send (buildFrame cb p)]
  | .waitrdy => [.wait]
  | .rdack => [.recv 6]
  | .rdresp rlen => [.recv (rlen + 9)]
  | .request cb _ rlen => [.send (buildFrame cb p), .wait, .recv 6, .wait, .recv (rlen + 9)]
  | .send cb _ => [.send (buildFrame cb p), .wait, .recv 6]
  | .nbegin _ => []
  | .nnext => []

/-- Each command issued after the previous one has finished without error; the sequence stops at the first command that
finishes with an error (R120), or that never finishes. -/
def runSequence : List Instr → List Completion → State → Result (State × List Completion)
  | [], script, s => .next (s, script)
  | i :: rest, script, s =>
    andThen (exec i s) fun s1 =>
      andThen (serve script s1) fun r =>
        if r.1.status.busy = true ∨ r.1.status.err ≠ .none then .next r else runSequence rest r.2 r.1

/-- HANDSHAKE cb, plen, rlen (R120). -/
def handshake (cb : Byte) (plen rlen : Nat) : List Instr :=
  [.pack cb plen, .waitrdy, .rdack, .waitrdy, .rdresp rlen]

/-- NOTIFY cb, plen (R121). -/
def notify (cb : Byte) (plen : Nat) : List Instr := [.pack cb plen, .waitrdy, .rdack]

/-- A line of a host program (R119). -/
inductive ProgramLine where
  /-- a command -/
  | command (i : Instr)
  /-- `STG[off..] = bytes` -/
  | stage (off : Nat) (bytes : List Byte)
  /-- `NIN[off..] = bytes` -/
  | input (off : Nat) (bytes : List Byte)
  /-- `POLL`: read STATUS until DONE = 1 -/
  | poll
  /-- a pseudo-instruction, as its commands (R120, R121) -/
  | sequence (l : List Instr)
  deriving DecidableEq, Repr

/-- The host writes `bytes` to a memory, the first at offset `off`. -/
def writeEvents (space : Space) : Nat → List Byte → List Event
  | _, [] => []
  | off, b :: rest => .host (.writeMem space off b) :: writeEvents space (off + 1) rest

/-- One line of a program (R119). A poll lets the transport answer until the command has finished, then reads STATUS.
DESIGN CHOICE (log 30): where DONE is still 0 when the script is used up, or because no command was issued, R119's POLL
reads on without end; here it reads STATUS once and the run goes on with the next line. DESIGN CHOICE (log 31): the
transport answers only at a POLL and inside a pseudo-instruction, although 20_memory.md R90 lets it answer between any two
steps. -/
def runLine (l : ProgramLine) (script : List Completion) (s : State) : Result (State × List Completion) :=
  match l with
  | .command i => andThen (writeCmd (encode i) s) fun s1 => .next (s1, script)
  | .stage off bytes => andThen (runEvents (writeEvents .stg off bytes) s) fun s1 => .next (s1, script)
  | .input off bytes => andThen (runEvents (writeEvents .nin off bytes) s) fun s1 => .next (s1, script)
  | .poll =>
    andThen (serve script s) fun r => andThen (readReg .word 0x04 r.1) fun s1 => .next (s1, r.2)
  | .sequence l => runSequence l script s

/-- A program, line by line. -/
def runProgram : List ProgramLine → List Completion → State → Result (State × List Completion)
  | [], script, s => .next (s, script)
  | l :: rest, script, s => andThen (runLine l script s) fun r => runProgram rest r.2 r.1

end Sys2Proof.Machine
end

