-- ==== Sys2Proof/Machine/Companion.lean ====
section
/-! DEFINITION. The companion response decode procedure (spec 43_response_decode.md): host code OUTSIDE the block that uses
REQUEST (00_scope.md R3). The block never performs these checks and STATUS never holds its two codes. -/

namespace Sys2Proof.Machine

/-- The result types (R224 to R228). -/
inductive ResultType where
  /-- unit -/
  | unit
  /-- fixed byte block of size n -/
  | block (n : Nat)
  /-- FirmwareVersion -/
  | firmwareVersion
  /-- DataReadResult(n) -/
  | dataRead (n : Nat)
  /-- optional CardUid -/
  | cardUid
  deriving DecidableEq, Repr

/-- `len(T)`, the declared payload length (R223 to R228). -/
def declaredLen : ResultType → Nat
  | .unit => 0
  | .block n => n
  | .firmwareVersion => 4
  | .dataRead n => n + 1
  | .cardUid => 19

/-- A decoded response. -/
inductive Decoded where
  | unit
  | bytes (b : List Byte)
  | firmware (ic version revision : Byte) (iso18092 iso14443b iso14443a : Bool)
  | readOk (data : List Byte)
  /-- a device-signalled read failure: a value, not an error (R227) -/
  | readFailure (status : Byte)
  | uid (u : Option (List Byte))
  deriving DecidableEq, Repr

/-- The errors TypedRequest answers (R220, R221): the block's own, or one of the companion's two. -/
inductive CompanionError where
  | block (e : ErrCode)
  | invalidResponse
  | decoder
  deriving DecidableEq, Repr

/-- The code of a companion error, in the block's code space (R221, 60_exceptions.md R301). -/
def companionCode : CompanionError → Nat
  | .block e => errCode e
  | .invalidResponse => 8
  | .decoder => 9

/-- The UID of a one-target response (R228): none unless byte 0 is 1 and the length at most 7; zero-padded to 7 bytes. -/
def decodeUid (d : List Byte) : Option (List Byte) :=
  let n := (at8 d 5).toNat
  if at8 d 0 ≠ 1 then none
  else if n > 7 then none
  else some (slice d 6 (6 + n) ++ List.replicate (7 - n) 0)

/-- The value of a payload of the declared length (R224 to R228). -/
def decodeBody (t : ResultType) (d : List Byte) : Decoded :=
  match t with
  | .unit => .unit
  | .block _ => .bytes d
  | .firmwareVersion =>
    .firmware (at8 d 0) (at8 d 1) (at8 d 2) ((at8 d 3).getLsbD 2) ((at8 d 3).getLsbD 1) ((at8 d 3).getLsbD 0)
  | .dataRead _ => if at8 d 0 = 0 then .readOk (d.drop 1) else .readFailure (at8 d 0)
  | .cardUid => .uid (decodeUid d)

/-- `decode_T` (R223): a payload whose length is not the declared one gives DECODER before any byte is examined, for
every type except unit, which always succeeds (R224). -/
def decodePayload (t : ResultType) (d : List Byte) : Except CompanionError Decoded :=
  if t = .unit then .ok .unit
  else if d.length ≠ declaredLen t then .error .decoder
  else .ok (decodeBody t d)

/-- What TypedRequest does once the block has finished (R220, R222): the block's error unchanged; the echo check, whose
sum is mod 256; then the decode of `SCR[7 .. 7 + RPLEN)`. None while the command has not finished (log 30). -/
def typedResult (t : ResultType) (c : Byte) (s : State) : Result (Option (Except CompanionError Decoded)) :=
  if s.status.done = false then .next none
  else if s.status.err ≠ .none then .next (some (.error (.block s.status.err)))
  else if s.result.rcmd ≠ c + 1 then .next (some (.error .invalidResponse))
  else
    andThen (written .unwrittenScratch (readBytes s.scr 7 s.result.rplen.toNat)) fun d =>
      .next (some (decodePayload t d))

/-- What TypedRequest asks of the block first (R220): the payload into STG, then REQUEST. DESIGN CHOICE (log 29): a
declared length above 511 fits no RLEN (R114) and the spec does not say what happens then; the word issued holds its low
9 bits. -/
def typedProgram (t : ResultType) (c : Byte) (payload : List Byte) : List ProgramLine :=
  [.stage 0 payload, .command (.request c payload.length (declaredLen t)), .poll]

/-- `TypedRequest(T, c, payload)` (R220), the transport answering from a script. -/
def typedRequest (t : ResultType) (c : Byte) (payload : List Byte) (script : List Completion) (s : State) :
    Result (State × Option (Except CompanionError Decoded)) :=
  andThen (runProgram (typedProgram t c payload) script s) fun r =>
    andThen (typedResult t c r.1) fun v => .next (r.1, v)

/-! ## The four modelled commands (R229 to R233). PRESUMED (log 21): their byte values are general knowledge. -/

/-- SAMConfiguration modes (R231). -/
inductive SamMode where
  | normal
  | virtualCard (timeout : Byte)
  | wiredCard
  | dualCard
  deriving DecidableEq, Repr

/-- The mode byte and the timeout byte (R231). -/
def samBytes : SamMode → List Byte
  | .normal => [0x01, 0x00]
  | .virtualCard timeout => [0x02, timeout]
  | .wiredCard => [0x03, 0x00]
  | .dualCard => [0x04, 0x00]

/-- get firmware version (R230): type, command byte and payload. -/
def getFirmwareVersion : ResultType × Byte × List Byte := (.firmwareVersion, 0x02, [])

/-- configure secure-access mode (R231). -/
def configureSam (mode : SamMode) (irq : Bool) : ResultType × Byte × List Byte :=
  (.unit, 0x14, samBytes mode ++ [if irq then 0x01 else 0x00])

/-- read one tag page (R232), N_READ = 16. -/
def readPage (page : Byte) : ResultType × Byte × List Byte := (.dataRead 16, 0x40, [0x01, 0x30, page])

/-- list passive targets (R233). -/
def listTargets (cardType : Byte) : ResultType × Byte × List Byte := (.cardUid, 0x4A, [0x01, cardType])

end Sys2Proof.Machine
end

