-- ==== Sys2Proof/Safety.lean ====
section
/-! DEFINITION. What holds of the block between steps (the whole-machine rules of spec/ as predicates on states), in the
terms the obligations use. Every part is decidable. -/

namespace Sys2Proof.Machine

/-! ## The command in progress and the port -/

/-- No command is in progress (42_handshake.md R192): BUSY is 0, nothing is pending, nothing is latched. -/
abbrev State.idle (s : State) : Prop := s.status.busy = false ∧ s.pending = none ∧ s.latch = none

/-- The call that phase `p` of the command `i` with payload `payload` has outstanding (R193; 41_frame_codec.md R143, R152,
R162): in SEND the frame just built, which SCR holds. -/
def callFits (s : State) (l : Latch) : Phase → Call → Prop
  | .send, .send bytes =>
    bytes = buildFrame (cmdbOf l.instr) l.payload ∧ l.payload.length = plenOf l.instr ∧
      plenOf l.instr ≤ s.cfg.bufCap - 10 ∧ readBytes s.scr 0 bytes.length = some bytes
  | .wait1, .wait => True
  | .ack, .recv n => n = 6
  | .wait2, .wait => True
  | .recv, .recv n => n = rlenOf l.instr + 9
  | _, _ => False

/-- BUSY, the pending call, the latched operands and PHASE agree (10_state.md R34, R51, R53; 42_handshake.md R191 to R193):
either no command is in progress, or exactly one is, its phase is one of its row, and the outstanding call is that phase's. -/
def State.portOk (s : State) : Prop :=
  match s.pending, s.latch with
  | none, none => s.status.busy = false
  | some call, some l =>
    s.status.busy = true ∧ s.status.done = false ∧ s.status.err = .none ∧
      l.instr.wf = true ∧ s.cmd = encode l.instr ∧
      s.status.phase ∈ phasesOf l.instr ∧ callFits s l s.status.phase call ∧
      (.recv ∈ phasesOf l.instr → rlenOf l.instr + 9 ≤ s.cfg.bufCap) ∧
      (clearsResult l.instr = true → s.result.rvalid = false)
  | none, some _ => False
  | some _, none => False

/-! ## STATUS -/

/-- The phase an error code is raised in (60_exceptions.md R301, R306). -/
def errPhase : ErrCode → Phase → Bool
  | .none, p => p == .idle
  | .transport, p => p != .idle
  | .tooMuchData, p => p == .send
  | .notAcknowledged, p => p == .ack
  | .badResponse, p => p == .recv
  | .badChecksum, p => p == .recv
  | .bufferUnderflow, p => p == .recv
  | .syntaxErr, p => p == .recv
  | .notFormatted, p => p == .idle
  | .underflowHeader, p => p == .idle
  | .underflowPayload, p => p == .idle
  | .utf8, p => p == .idle
  | .illegalCommand, p => p == .idle

/-- The opcodes of the commands that have phase `p` (42_handshake.md R193). -/
def phaseOpcodes : Phase → List Nat
  | .idle => List.range 16
  | .send => [1, 5, 6]
  | .wait1 => [2, 5, 6]
  | .ack => [3, 5, 6]
  | .wait2 => [5]
  | .recv => [4, 5]

/-- Whether an error code is one only NNEXT raises (60_exceptions.md R301). -/
def isNdefError : ErrCode → Bool
  | .notFormatted => true
  | .underflowHeader => true
  | .underflowPayload => true
  | .utf8 => true
  | _ => false

/-- LASTOP is the last accepted word's `w[3:0]` (10_state.md R34); while no command is in progress PHASE is that of the
error, IDLE if there is none (R306); PHASE and ERR are ones the last command can have (R301). -/
abbrev State.statusOk (s : State) : Prop :=
  s.status.lastop = s.cmd.setWidth 4 ∧
    (s.status.busy = false → errPhase s.status.err s.status.phase = true) ∧
    s.status.lastop.toNat ∈ phaseOpcodes s.status.phase ∧
    (isNdefError s.status.err = true → s.status.lastop = 9 ∧ s.nitem = .error)

/-! ## Memories -/

/-- SCR, STG and NIN are in canonical form and inside their address ranges (20_memory.md R88); ACKCAP is unwritten or
6 bytes (10_state.md R52). -/
abbrev State.memoriesOk (s : State) : Prop :=
  (s.scr.wf ∧ s.scr.within s.cfg.bufCap) ∧ (s.stg.wf ∧ s.stg.within (s.cfg.bufCap - 10)) ∧
    (s.nin.wf ∧ s.nin.within s.cfg.ninCap) ∧ ∀ b ∈ s.ackcap, b.length = 6

/-! ## RESULT -/

/-- RVALID = 1 means that RCMD and RPLEN describe a frame held in SCR, its payload written at offset 7; otherwise RESULT
is 0 (10_state.md R35, R46; 41_frame_codec.md R166, R171). -/
abbrev State.resultOk (s : State) : Prop :=
  if s.result.rvalid then
    readByte s.scr 6 = some s.result.rcmd ∧ (readBytes s.scr 7 s.result.rplen.toNat).isSome = true ∧
      s.result.rplen.toNat + 9 ≤ s.cfg.bufCap
  else s.result.rcmd = 0 ∧ s.result.rplen = 0

/-! ## The NDEF parser -/

/-- The record registers that describe no MIME text: type and value 0 (10_state.md R42, R43). -/
abbrev State.textZero (s : State) : Prop :=
  s.ntypeOff = 0 ∧ s.ntypeLen = 0 ∧ s.nvalOff = 0 ∧ s.nvalLen = 0

/-- The type and value slices lie in the record in this order, the value at its end (44_ndef_parser.md R264, R268). -/
abbrev State.textInside (s : State) : Prop :=
  s.nrecOff.toNat + 3 ≤ s.ntypeOff.toNat ∧ s.ntypeOff.toNat + s.ntypeLen.toNat ≤ s.nvalOff.toNat ∧
    s.nvalOff.toNat + s.nvalLen.toNat = s.nrecOff.toNat + s.nrecLen.toNat

/-- The item registers agree with NITEM (10_state.md R40 to R43; 44_ndef_parser.md R268, R273, R275): a record lies inside
the bound input and ends at the cursor, its kind is one the parser yields, and only a MIME record has text slices. -/
def State.itemOk (s : State) : Prop :=
  match s.nitem with
  | .none => s.nrecOff = 0 ∧ s.nrecLen = 0 ∧ s.textZero
  | .error => s.nrecOff = 0 ∧ s.nrecLen = 0 ∧ s.textZero
  | .endItem => s.nrecOff = 0 ∧ s.nrecLen = 0 ∧ s.textZero
  | .record kind _ =>
    3 ≤ s.nrecLen.toNat ∧ s.nrecOff.toNat + s.nrecLen.toNat = s.ncur.toNat ∧ s.ncur.toNat ≤ s.nlen.toNat ∧
      kind ∈ [RecKind.empty, .mimeMedia, .unknown, .unexpected] ∧
      if kind = .mimeMedia then s.textInside else s.textZero

/-- NSTATE agrees with the cursor and the last item (44_ndef_parser.md R251, R257, R274, R276): FRESH has read nothing,
READING has just yielded a record without message-end, an ERROR or END item leaves COMPLETE. -/
def State.parserOk (s : State) : Prop :=
  s.nlen.toNat ≤ s.cfg.ninCap ∧
    match s.nstate, s.nitem with
    | .fresh, .none => s.ncur = 0
    | .reading, .record _ flags => flagME flags = false
    | .complete, .record _ flags => flagME flags = true
    | .complete, .error => True
    | .complete, .endItem => True
    | .complete, .none => s.nlen = 0 ∧ s.ncur = 0
    | _, _ => False

/-! ## The invariant -/

/-- What holds of the block between any two steps. -/
structure State.Inv (s : State) : Prop where
  cfg : s.cfg.wf
  port : s.portOk
  status : s.statusOk
  memories : s.memoriesOk
  result : s.resultOk
  item : s.itemOk
  parser : s.parserOk

/-! ## Words the obligations use -/

/-- A word with exactly the bits `lo` to `hi` set. -/
def bitMask (hi lo : Nat) : Word := BitVec.ofNat 32 (2 ^ (hi + 1) - 2 ^ lo)

/-- The reserved bits of the register at an offset of the window (10_state.md R33 to R43). -/
def reservedBits (off : Nat) : Word :=
  match off with
  | 0x00 => 0
  | 0x04 => bitMask 3 2 ||| bitMask 11 11 ||| bitMask 31 16
  | 0x08 => bitMask 31 18
  | 0x0C => 0
  | 0x10 => bitMask 31 2
  | 0x1C => bitMask 3 2 ||| bitMask 7 7 ||| bitMask 31 16
  | _ => bitMask 31 20

/-- The well-formed UTF-8 sequences, row by row of R278's table (44_ndef_parser.md). -/
def utf8Sequence : List Byte → Bool
  | [a] => inRange 0x00 0x7F a
  | [a, b] => inRange 0xC2 0xDF a && inRange 0x80 0xBF b
  | [a, b, c] =>
    ((inRange 0xE0 0xE0 a && inRange 0xA0 0xBF b) || (inRange 0xE1 0xEC a && inRange 0x80 0xBF b) ||
      (inRange 0xED 0xED a && inRange 0x80 0x9F b) || (inRange 0xEE 0xEF a && inRange 0x80 0xBF b)) &&
      inRange 0x80 0xBF c
  | [a, b, c, d] =>
    ((inRange 0xF0 0xF0 a && inRange 0x90 0xBF b) || (inRange 0xF1 0xF3 a && inRange 0x80 0xBF b) ||
      (inRange 0xF4 0xF4 a && inRange 0x80 0x8F b)) && inRange 0x80 0xBF c && inRange 0x80 0xBF d
  | _ => false

/-- The header bytes at the cursor as R264 to R267 read them, `h` being `NIN[cur .. cur + hlen)`. -/
def recordOf (cur : Nat) (h : List Byte) : Record :=
  let f := at8 h 0
  { cur := cur
    flags := f
    hlen := h.length
    tlen := (at8 h 1).toNat
    plen := if flagSR f then (at8 h 2).toNat else be32 (at8 h 2) (at8 h 3) (at8 h 4) (at8 h 5)
    idlen := if flagIL f then (at8 h (h.length - 1)).toNat else 0 }

/-- The kind a record of TNF `n` has (R269 to R272). -/
def kindOfTnf (n : Nat) : RecKind :=
  if n = 0 then .empty else if n = 2 then .mimeMedia else if n = 5 then .unknown else .unexpected

/-- `k` NNEXT commands in a row. -/
def nnextTimes : Nat → State → Result State
  | 0, s => .next s
  | k + 1, s => andThen (exec .nnext s) (nnextTimes k)

/-- `byte(i)` of R252 can be read and is `b`, `none` being ABSENT: at or beyond NLEN it is ABSENT, below NLEN it is the
written byte of NIN. -/
abbrev State.byteIs (s : State) (i : Nat) (b : Option Byte) : Prop :=
  if i < s.nlen.toNat then b.isSome = true ∧ readByte s.nin i = b else b = none

/-- Bytes 0 to 3 of the input can be read and are not all 0xFF (R260; the ABSENT of R252 is not 0xFF). -/
abbrev State.notBlank (s : State) : Prop :=
  (∀ k < 4, k < s.nlen.toNat → (readByte s.nin k).isSome = true) ∧ ∃ k < 4, ¬ s.byteIs k (some 0xFF)

/-- Two states the NDEF parser cannot tell apart: the same bytes below NLEN, NLEN, cursor, state and NO_TLV_ACTION
(R250, R279; 10_state.md R39). -/
abbrev State.sameParse (s t : State) : Prop :=
  (∀ k < s.nlen.toNat, readByte s.nin k = readByte t.nin k) ∧ s.nlen = t.nlen ∧ s.ncur = t.ncur ∧ s.nstate = t.nstate ∧
    s.cfg.noTlvAction = t.cfg.noTlvAction ∧ s.status.busy = t.status.busy

/-- The registers the NRP owns and the two memories only the host writes, alike in `s` and `t` (R356; 20_memory.md R85). -/
abbrev State.sameNrp (s t : State) : Prop :=
  t.nstate = s.nstate ∧ t.ncur = s.ncur ∧ t.nlen = s.nlen ∧ t.nitem = s.nitem ∧ t.nrecOff = s.nrecOff ∧
    t.nrecLen = s.nrecLen ∧ t.ntypeOff = s.ntypeOff ∧ t.ntypeLen = s.ntypeLen ∧ t.nvalOff = s.nvalOff ∧
    t.nvalLen = s.nvalLen

/-- What the FCU and HSQ own, alike in `s` and `t` (R356). -/
abbrev State.sameFcu (s t : State) : Prop :=
  t.result = s.result ∧ t.terrinfo = s.terrinfo ∧ t.scr = s.scr ∧ t.stg = s.stg ∧ t.ackcap = s.ackcap ∧
    t.pending = s.pending

/-- The model's own fields and the parameters, alike in `s` and `t`. -/
abbrev State.sameOwn (s t : State) : Prop :=
  t.cfg = s.cfg ∧ t.hostRead = s.hostRead ∧ t.events = s.events

/-- `t` is `s` but for CMD and STATUS. -/
abbrev State.sameButCmdStatus (s t : State) : Prop :=
  s.sameNrp t ∧ s.sameFcu t ∧ s.sameOwn t ∧ t.nin = s.nin ∧ t.latch = s.latch ∧ t.draws = s.draws

/-- Everything but the parameters and the model's own fields as R58 says (10_state.md). -/
abbrev State.asReset (s : State) : Prop :=
  s.cmd = 0 ∧ statusWord s.status = 0 ∧ resultWord s.result = 0 ∧ s.terrinfo = 0 ∧ nstateWord s.nstate = 2 ∧
    s.ncur = 0 ∧ s.nlen = 0 ∧ itemWord s.nitem = 0 ∧ s.nrecOff = 0 ∧ s.nrecLen = 0 ∧ s.ntypeOff = 0 ∧
    s.ntypeLen = 0 ∧ s.nvalOff = 0 ∧ s.nvalLen = 0 ∧ s.scr = [] ∧ s.stg = [] ∧ s.nin = [] ∧ s.pending = none ∧
    s.ackcap = none ∧ s.latch = none

end Sys2Proof.Machine
end

