-- ==== Sys2Proof/Certificates/Slice0/Obligations.lean ====
section
/-! DEFINITION. The statements for the provers. Each docstring names the rules of spec/ it rests on. -/

open Sys2Proof Sys2Proof.Machine

/-! ## Encoding (30_encoding.md) -/

/-- R111 to R114, R116: decoding an encoded well-formed instruction gives it back, every operand at every value of its
field. -/
def Obligations.DecodeOfEncode : Prop := ∀ i : Instr, i.wf = true → decode (encode i) = .ok i

/-- R110 to R116: a legal word is the encoding of the instruction it decodes to, so no bit of it is dropped. -/
def Obligations.EncodeOfDecode : Prop := ∀ (w : Word) (i : Instr), decode w = .ok i → encode i = w

/-- R116: the decoder reads a row's instruction from a word exactly when `(w AND mask) = match` for that row. -/
def Obligations.DecodeAgreesWithMatchAndMask : Prop :=
  ∀ r ∈ opcodeTable, ∀ w : Word,
    r.accepts w = true ↔ ∃ i, decode w = .ok i ∧ i.mnemonic = r.mnemonic

/-- R116, 95_test_vectors.md 2.1: sample words decode to the instructions they stand for. -/
def Obligations.SampleWordsDecode : Prop :=
  decode 0x00003141 = .ok (.pack 0x14 3) ∧ decode 0x00000002 = .ok .waitrdy ∧ decode 0x00000003 = .ok .rdack ∧
    decode 0x00004004 = .ok (.rdresp 4) ∧ decode 0x02203405 = .ok (.request 0x40 3 17) ∧
    decode 0x00003146 = .ok (.send 0x14 3) ∧ decode 0x00013008 = .ok (.nbegin 19) ∧ decode 0x00000009 = .ok .nnext

/-- R117: a word is illegal exactly when its OPC has no row or one of its row's must-be-0 fields is not zero. -/
def Obligations.IllegalWordsAreReservedOrNonzero : Prop :=
  ∀ w : Word, (∃ e, decode w = .error e) ↔
    (opcOf w ∈ [0x0, 0x7, 0xA, 0xB, 0xC, 0xD, 0xE, 0xF] ∨
      (opcOf w ∈ [0x1, 0x6] ∧ ¬ (l2Of w = 0 ∧ rsvOf w = 0)) ∨
      (opcOf w ∈ [0x2, 0x3, 0x9] ∧ zOf w ≠ 0) ∨
      (opcOf w = 0x4 ∧ ¬ (cbOf w = 0 ∧ l2Of w = 0 ∧ rsvOf w = 0)) ∨
      (opcOf w = 0x5 ∧ rsvOf w ≠ 0) ∨ (opcOf w = 0x8 ∧ cbOf w ≠ 0))

/-! ## Steps -/

/-- R33, R115, R190: when the next event is the host's write of a legal word to CMD, the step is `exec` of the decoded
instruction, the event taken. The list of coming events is the model's choice (log 1, log 16). -/
def Obligations.StepRunsTheDecodedCommand : Prop :=
  ∀ (s : State) (w : Word) (i : Instr) (rest : List Event), s.events = cmdWrite w :: rest → decode w = .ok i →
    step s = exec i { s with events := rest }

/-- 60_exceptions.md R311: an illegal word finishes at once with ILLEGAL_COMMAND; of the whole state only CMD and STATUS
change. -/
def Obligations.IllegalWordFinishesAtOnce : Prop :=
  ∀ (s : State) (w : Word) (e : IllegalWord), s.idle → decode w = .error e →
    writeCmd w s = .next { s with
      cmd := w
      status := { busy := false, done := true, err := .illegalCommand, phase := .idle, lastop := w.setWidth 4 } }

/-- 70_reset_and_hazards.md R352, 42_handshake.md R192: while BUSY = 1 every write to CMD is refused, legal or not. That
`exec` itself answers busyWrite is the model's reading (log 18), and that it does so before it looks at the lengths,
where responseTooLong or inputTooLong would hold too, its choice (log 15). -/
def Obligations.CmdWriteWhileBusyIsRefused : Prop :=
  ∀ s : State, s.status.busy = true →
    (∀ w, writeCmd w s = .refused .busyWrite) ∧ (∀ i, exec i s = .refused .busyWrite)

/-! ## PACK, SEND, REQUEST: the SEND phase (41_frame_codec.md) -/

/-- R140: the layout of an outbound frame, byte by byte. -/
def Obligations.OutboundFrameLayout : Prop :=
  ∀ (c : Byte) (p : List Byte), p.length ≤ 253 →
    (buildFrame c p).length = 9 + p.length ∧
      (buildFrame c p)[0]? = some 0x00 ∧ (buildFrame c p)[1]? = some 0x00 ∧ (buildFrame c p)[2]? = some 0xFF ∧
      (∃ len : Byte, len.toNat = 2 + p.length ∧ (buildFrame c p)[3]? = some len ∧
        (buildFrame c p)[4]? = some (neg8 len)) ∧
      (buildFrame c p)[5]? = some 0xD4 ∧ (buildFrame c p)[6]? = some c ∧
      (∀ k < p.length, (buildFrame c p)[7 + k]? = p[k]?) ∧
      (buildFrame c p)[7 + p.length]? = some (neg8 (sum8 (0xD4 :: c :: p))) ∧
      (buildFrame c p)[8 + p.length]? = some 0x00

/-- R141, R143, R201, R202, R305: on an idle block whose STG holds the payload `p`, PACK, SEND and REQUEST (its response
fitting the buffer) are accepted: BUSY, phase SEND, RESULT and TERRINFO cleared, the frame at the start of SCR and offered
to the transport, operands and payload latched; nothing else changes. -/
def Obligations.SendingCommandsOfferTheFrame : Prop :=
  ∀ (cb : Byte) (plen rlen : Nat) (p : List Byte) (s : State) (i : Instr), s.idle →
    i ∈ [Instr.pack cb plen, .send cb plen, .request cb plen rlen] →
    (i = .request cb plen rlen → rlen + 9 ≤ s.cfg.bufCap) →
    plen ≤ s.cfg.bufCap - 10 → readBytes s.stg 0 plen = some p →
    exec i s = .next { s with
      cmd := encode i
      status := { busy := true, done := false, err := .none, phase := .send, lastop := (encode i).setWidth 4 }
      result := { rcmd := 0, rplen := 0, rvalid := false }
      terrinfo := 0
      scr := writeBytes s.scr 0 (buildFrame cb p)
      pending := some (.send (buildFrame cb p))
      latch := some { instr := i, payload := p } }

/-- R143, R144: the bytes of memory when PACK, SEND or REQUEST goes on: SCR holds the frame offered in `[0 .. 9 + PLEN)`,
both checksum equations hold of it there, and every other byte of SCR, STG and NIN reads as before. -/
def Obligations.SentFrameInScratchIsBalanced : Prop :=
  ∀ (cb : Byte) (plen rlen : Nat) (s t : State) (i : Instr),
    i ∈ [Instr.pack cb plen, .send cb plen, .request cb plen rlen] → plen ≤ s.cfg.bufCap - 10 →
    exec i s = .next t →
    ∃ f : List Byte, t.pending = some (.send f) ∧ f.length = 9 + plen ∧
      (∀ k < 9 + plen, readByte t.scr k = f[k]?) ∧ (∀ k, 9 + plen ≤ k → readByte t.scr k = readByte s.scr k) ∧
      (∀ k, readByte t.stg k = readByte s.stg k ∧ readByte t.nin k = readByte s.nin k) ∧
      at8 f 3 + at8 f 4 = 0 ∧ sum8 (slice f 5 (8 + plen)) = 0

/-- R143, R118, R301: a payload above BUF_CAP - 10 ends PACK, SEND or REQUEST with TOO_MUCH_DATA in phase SEND, nothing
written to SCR and no transport call made. -/
def Obligations.TooMuchDataSendsNothing : Prop :=
  ∀ (cb : Byte) (plen rlen : Nat) (s : State) (i : Instr), s.idle →
    i ∈ [Instr.pack cb plen, .send cb plen, .request cb plen rlen] →
    (i = .request cb plen rlen → rlen + 9 ≤ s.cfg.bufCap) → s.cfg.bufCap - 10 < plen →
    exec i s = .next { s with
      cmd := encode i
      status := { busy := false, done := true, err := .tooMuchData, phase := .send, lastop := (encode i).setWidth 4 }
      result := { rcmd := 0, rplen := 0, rvalid := false }
      terrinfo := 0 }

/-- 10_state.md R50, 44_ndef_parser.md R252, R344: reading a byte nothing has written is a fault. UnwrittenStage: a payload
byte of PACK, SEND, REQUEST. UnwrittenInput: NNEXT over any byte of the record's header (in READING), over a type or
payload byte of a MIME record, over byte 0 (in FRESH), over the one of bytes 0 to 3 that decides whether the tag is blank,
and over byte 5 where byte 0 is not 0x03. That a MIME record's unwritten byte faults even beside bad text is log 10. -/
def Obligations.UnwrittenReadsFault : Prop :=
  (∀ (cb : Byte) (plen rlen k : Nat) (s : State) (i : Instr), s.idle →
    i ∈ [Instr.pack cb plen, .send cb plen, .request cb plen rlen] →
    (i = .request cb plen rlen → rlen + 9 ≤ s.cfg.bufCap) →
    plen ≤ s.cfg.bufCap - 10 → k < plen → readByte s.stg k = none → exec i s = .fault .unwrittenStage) ∧
  (∀ s : State, s.idle → s.nstate = .reading →
    let cur := s.ncur.toNat
    (cur < s.nlen.toNat → readByte s.nin cur = none → exec .nnext s = .fault .unwrittenInput) ∧
    (∀ (f : Byte) (k : Nat), readByte s.nin cur = some f → cur + headerLen f ≤ s.nlen.toNat → k < headerLen f →
      readByte s.nin (cur + k) = none → exec .nnext s = .fault .unwrittenInput) ∧
    (∀ h : List Byte, readBytes s.nin cur h.length = some h → h.length = headerLen (at8 h 0) →
      let r := recordOf cur h
      cur + recTotal r ≤ s.nlen.toNat → tnf r.flags = 2 →
      readBytes s.nin (recTypeOff r) r.tlen = none ∨ readBytes s.nin (recValOff r) r.plen = none →
      exec .nnext s = .fault .unwrittenInput)) ∧
  (∀ s : State, s.idle → s.nstate = .fresh →
    (0 < s.nlen.toNat → readByte s.nin 0 = none → exec .nnext s = .fault .unwrittenInput) ∧
    (∀ k < 4, k < s.nlen.toNat → readByte s.nin k = none → (∀ j < 4, j ≠ k → s.byteIs j (some 0xFF)) →
      exec .nnext s = .fault .unwrittenInput) ∧
    (s.notBlank → ¬ s.byteIs 0 (some 0x03) → 5 < s.nlen.toNat → readByte s.nin 5 = none →
      exec .nnext s = .fault .unwrittenInput))

/-- R118, R161, R201, R257: RDRESP or REQUEST asking for more than the buffer holds, and NBEGIN of more than NIN holds, are
refused before acceptance has any effect. -/
def Obligations.OversizeCommandsAreRefused : Prop :=
  ∀ (cb : Byte) (plen rlen n : Nat) (s : State), s.status.busy = false →
    (s.cfg.bufCap < rlen + 9 → exec (.rdresp rlen) s = .refused .responseTooLong ∧
      exec (.request cb plen rlen) s = .refused .responseTooLong) ∧
    (s.cfg.ninCap < n → exec (.nbegin n) s = .refused .inputTooLong)

/-! ## WAITRDY, RDACK, RDRESP -/

/-- R151, R161, R200, R305: on an idle block WAITRDY issues a wait in WAIT1, RDACK a receive of 6 in ACK and RDRESP (its
response fitting the buffer) a receive of RLEN + 9 in RECV; TERRINFO is cleared, RESULT by RDRESP only, and nothing else
changes, in particular no byte of memory. -/
def Obligations.SinglePhaseCommandsIssueTheirCall : Prop :=
  ∀ s : State, s.idle →
    exec .waitrdy s = .next { s with
      cmd := 0x00000002
      status := { busy := true, done := false, err := .none, phase := .wait1, lastop := 2 }
      terrinfo := 0
      pending := some .wait
      latch := some { instr := .waitrdy, payload := [] } } ∧
    exec .rdack s = .next { s with
      cmd := 0x00000003
      status := { busy := true, done := false, err := .none, phase := .ack, lastop := 3 }
      terrinfo := 0
      pending := some (.recv 6)
      latch := some { instr := .rdack, payload := [] } } ∧
    ∀ rlen, rlen + 9 ≤ s.cfg.bufCap →
      exec (.rdresp rlen) s = .next { s with
        cmd := encode (.rdresp rlen)
        status := { busy := true, done := false, err := .none, phase := .recv, lastop := 4 }
        result := { rcmd := 0, rplen := 0, rvalid := false }
        terrinfo := 0
        pending := some (.recv (rlen + 9))
        latch := some { instr := .rdresp rlen, payload := [] } }

/-! ## Inbound frames (41_frame_codec.md R160 to R171) -/

/-- R163: the checks in their order, the first failure answered. -/
def Obligations.FrameChecksInOrder : Prop :=
  ∀ b : List Byte, 9 ≤ b.length →
    let v1 := b[0]? = some 0x00 ∧ b[1]? = some 0x00 ∧ b[2]? = some 0xFF
    let len := (at8 b 3).toNat
    let v2 := (len + (at8 b 4).toNat) % 256 = 0
    let q := 5 + len + 1
    let v7 := ((slice b 5 (5 + len + 1)).map BitVec.toNat).sum % 256 = 0
    (¬ v1 → validateFrame b = .error .badResponse) ∧
      (v1 → ¬ v2 → validateFrame b = .error .badChecksum) ∧
      (v1 → v2 → len = 0 → validateFrame b = .error .badResponse) ∧
      (v1 → v2 → len = 1 → validateFrame b = .error .syntaxErr) ∧
      (v1 → v2 → 2 ≤ len → b.length ≤ q → validateFrame b = .error .bufferUnderflow) ∧
      (v1 → v2 → 2 ≤ len → q < b.length → b[q]? ≠ some 0x00 → validateFrame b = .error .badResponse) ∧
      (v1 → v2 → 2 ≤ len → b[q]? = some 0x00 → b[5]? ≠ some 0xD5 → validateFrame b = .error .badResponse) ∧
      (v1 → v2 → 2 ≤ len → b[q]? = some 0x00 → b[5]? = some 0xD5 → ¬ v7 →
        validateFrame b = .error .badChecksum) ∧
      (v1 → v2 → 2 ≤ len → b[q]? = some 0x00 → b[5]? = some 0xD5 → v7 →
        validateFrame b = .ok (at8 b 6, len - 2))

/-- R168, 90_conflicts.md C5: a device frame around any command byte and payload whose LEN fits a byte, whatever follows
it in the window, is valid and gives both back; the same frame with direction byte 0xD4 is BAD_RESPONSE. -/
def Obligations.InboundFrameRoundTrip : Prop :=
  ∀ (c : Byte) (p x : List Byte), p.length ≤ 253 →
    let len : Byte := BitVec.ofNat 8 (2 + p.length)
    let frame := fun tfi : Byte =>
      [0x00, 0x00, 0xFF, len, neg8 len, tfi, c] ++ p ++ [neg8 (sum8 (tfi :: c :: p)), 0x00] ++ x
    validateFrame (frame 0xD5) = .ok (c, p.length) ∧ slice (frame 0xD5) 7 (7 + p.length) = p ∧
      validateFrame (frame 0xD4) = .error .badResponse

/-- R169: every change of a single byte of a valid frame gives the error designated for its offset; a change after the
postamble gives the same results. -/
def Obligations.SingleByteChangesAreDetected : Prop :=
  ∀ (b : List Byte) (c v : Byte) (n k : Nat), validateFrame b = .ok (c, n) → k < b.length → b[k]? ≠ some v →
    let len := (at8 b 3).toNat
    (k ≤ 2 → validateFrame (b.set k v) = .error .badResponse) ∧
      (k = 3 ∨ k = 4 → validateFrame (b.set k v) = .error .badChecksum) ∧
      (k = 5 → validateFrame (b.set k v) = .error .badResponse) ∧
      (6 ≤ k → k ≤ 5 + len → validateFrame (b.set k v) = .error .badChecksum) ∧
      (k = 6 + len → validateFrame (b.set k v) = .error .badResponse) ∧
      (7 + len ≤ k → validateFrame (b.set k v) = .ok (c, n))

/-- R171: a valid frame in the window of RLEN has `2 <= LEN <= RLEN + 2`, so its payload is at most RLEN bytes and lies,
with DCS and postamble, inside the window. -/
def Obligations.ValidFrameBounds : Prop :=
  ∀ (b : List Byte) (c : Byte) (n rlen : Nat), b.length = rlen + 9 → validateFrame b = .ok (c, n) →
    2 ≤ (at8 b 3).toNat ∧ (at8 b 3).toNat ≤ rlen + 2 ∧ n = (at8 b 3).toNat - 2 ∧ n ≤ rlen ∧ 8 + n < b.length

/-! ## Completions (42_handshake.md, 20_memory.md R95 to R99) -/

/-- R151, R152: the six bytes of an ACK read go to ACKCAP, not SCR; if they differ from ACK_FRAME the command ends with
NOT_ACKNOWLEDGED in phase ACK, and nothing else changes. -/
def Obligations.AckMismatchEndsTheCommand : Prop :=
  ∀ (s : State) (l : Latch) (b : List Byte), s.pending = some (.recv 6) → s.latch = some l →
    s.status.phase = .ack → b.length = 6 → b ≠ s.cfg.ackFrame →
    complete (.okBytes b) s = .next { s with
      status := { busy := false, done := true, err := .notAcknowledged, phase := .ack, lastop := s.status.lastop }
      ackcap := some b
      pending := none
      latch := none }

/-- R163, R166, R167, R204: when the response read of RDRESP or REQUEST completes, SCR holds the received bytes in
`[0 .. RLEN + 9)` and its other bytes as before; a failed check ends the command with its error, PHASE staying RECV and
RESULT 0 as acceptance left it; a valid frame finishes it with RESULT describing the frame. -/
def Obligations.ResponseReadIsValidated : Prop :=
  ∀ (s : State) (l : Latch) (b : List Byte), s.portOk → s.status.phase = .recv → s.latch = some l →
    b.length = rlenOf l.instr + 9 →
    (∀ e, validateFrame b = .error e →
      complete (.okBytes b) s = .next { s with
        status := { busy := false, done := true, err := e, phase := .recv, lastop := s.status.lastop }
        scr := writeBytes s.scr 0 b
        pending := none
        latch := none }) ∧
    (∀ c n, validateFrame b = .ok (c, n) →
      complete (.okBytes b) s = .next { s with
        status := { busy := false, done := true, err := .none, phase := .idle, lastop := s.status.lastop }
        result := { rcmd := c, rplen := BitVec.ofNat 9 n, rvalid := true }
        scr := writeBytes s.scr 0 b
        pending := none
        latch := none }) ∧
    (∀ k, readByte (writeBytes s.scr 0 b) k = if k < b.length then b[k]? else readByte s.scr k)

/-- R97, R143, R152, R162, R194, R303, R306: whatever call fails, the command ends with TRANSPORT, PHASE naming the
phase of the failed call and TERRINFO the transport's value; RESULT, the NRP, STG and NIN stay; a failed send or wait
leaves SCR and ACKCAP alone, a failed ACK read leaves SCR alone, and a failed response read leaves ACKCAP and the bytes
of SCR from RLEN + 9 up alone, those below it being written with values nothing constrains. That the drawn bytes count
as written is the model's reading (log 6, log 8). -/
def Obligations.TransportFailureEndsTheCommand : Prop :=
  ∀ (s : State) (info : Word), s.portOk → s.status.busy = true →
    ∃ t, complete (.fail info) s = .next t ∧ t.terrinfo = info ∧
      t.status = { busy := false, done := true, err := .transport, phase := s.status.phase,
                   lastop := s.status.lastop } ∧
      t.idle ∧ t.result = s.result ∧ s.sameNrp t ∧ s.sameOwn t ∧ t.cmd = s.cmd ∧ t.stg = s.stg ∧ t.nin = s.nin ∧
      (s.status.phase ≠ .recv → t.scr = s.scr) ∧ (s.status.phase ≠ .ack → t.ackcap = s.ackcap) ∧
      (s.status.phase = .ack → ∃ b : List Byte, t.ackcap = some b ∧ b.length = 6) ∧
      ∀ l, s.latch = some l → s.status.phase = .recv → ∀ k,
        if k < rlenOf l.instr + 9 then (readByte t.scr k).isSome = true else readByte t.scr k = readByte s.scr k

/-- R193, R197, R198, R203: from the acceptance of a command on, the calls the transport sees are a prefix of the
command's row, whatever it answers. -/
def Obligations.CallsFollowTheRow : Prop :=
  ∀ (i : Instr) (s t : State) (p : List Byte) (script : List Completion), s.idle → exec i s = .next t →
    (plenOf i ≤ s.cfg.bufCap - 10 → readBytes s.stg 0 (plenOf i) = some p) →
    callsSeen script t <+: callRow p i

/-- R195, R201, R371: the full handshake: REQUEST, answered ok five times with ACK_FRAME and a valid frame of the window,
finishes after exactly these five completions with ERR 0 and RESULT describing the frame. -/
def Obligations.RequestRunsTheHandshake : Prop :=
  ∀ (s : State) (cb c : Byte) (plen rlen n : Nat) (p b : List Byte) (rest : List Completion), s.idle →
    s.cfg.ackFrame.length = 6 → rlen + 9 ≤ s.cfg.bufCap → plen ≤ s.cfg.bufCap - 10 →
    readBytes s.stg 0 plen = some p → b.length = rlen + 9 → validateFrame b = .ok (c, n) →
    andThen (exec (.request cb plen rlen) s)
        (serve ([.ok, .ok, .okBytes s.cfg.ackFrame, .ok, .okBytes b] ++ rest)) =
      .next ({ s with
        cmd := encode (.request cb plen rlen)
        status := { busy := false, done := true, err := .none, phase := .idle, lastop := 5 }
        result := { rcmd := c, rplen := BitVec.ofNat 9 n, rvalid := true }
        terrinfo := 0
        scr := writeBytes (writeBytes s.scr 0 (buildFrame cb p)) 0 b
        ackcap := some s.cfg.ackFrame }, rest)

/-- R196, R202, R371: SEND, answered ok three times with ACK_FRAME, finishes after exactly these three completions with
RESULT cleared and the frame in SCR. -/
def Obligations.SendRunsWithoutResponse : Prop :=
  ∀ (s : State) (cb : Byte) (plen : Nat) (p : List Byte) (rest : List Completion), s.idle →
    s.cfg.ackFrame.length = 6 → plen ≤ s.cfg.bufCap - 10 → readBytes s.stg 0 plen = some p →
    andThen (exec (.send cb plen) s) (serve ([.ok, .ok, .okBytes s.cfg.ackFrame] ++ rest)) =
      .next ({ s with
        cmd := encode (.send cb plen)
        status := { busy := false, done := true, err := .none, phase := .idle, lastop := 6 }
        result := { rcmd := 0, rplen := 0, rvalid := false }
        terrinfo := 0
        scr := writeBytes s.scr 0 (buildFrame cb p)
        ackcap := some s.cfg.ackFrame }, rest)

/-- R141, R151, R200, R371: PACK, WAITRDY and RDACK answered ok finish after that one completion, PHASE IDLE. -/
def Obligations.SinglePhaseCommandsFinish : Prop :=
  ∀ (s : State) (cb : Byte) (plen : Nat) (p : List Byte) (rest : List Completion), s.idle →
    (plen ≤ s.cfg.bufCap - 10 → readBytes s.stg 0 plen = some p →
      andThen (exec (.pack cb plen) s) (serve (.ok :: rest)) = .next ({ s with
        cmd := encode (.pack cb plen)
        status := { busy := false, done := true, err := .none, phase := .idle, lastop := 1 }
        result := { rcmd := 0, rplen := 0, rvalid := false }
        terrinfo := 0
        scr := writeBytes s.scr 0 (buildFrame cb p) }, rest)) ∧
    andThen (exec .waitrdy s) (serve (.ok :: rest)) = .next ({ s with
      cmd := 0x00000002
      status := { busy := false, done := true, err := .none, phase := .idle, lastop := 2 }
      terrinfo := 0 }, rest) ∧
    (s.cfg.ackFrame.length = 6 →
      andThen (exec .rdack s) (serve (.okBytes s.cfg.ackFrame :: rest)) = .next ({ s with
        cmd := 0x00000003
        status := { busy := false, done := true, err := .none, phase := .idle, lastop := 3 }
        terrinfo := 0
        ackcap := some s.cfg.ackFrame }, rest))

/-- R120: HANDSHAKE cb, plen, rlen ends as REQUEST does, with the same script left, except in CMD, LASTOP and, when the
second wait fails, PHASE (WAIT1 instead of WAIT2). That the bytes drawn into ACKCAP or SCR by a failed receive, and the
count of draws, are also equal in the two runs is the model's choice (log 6: a draw depends on the counter alone). -/
def Obligations.HandshakeEndsAsRequest : Prop :=
  ∀ (cb : Byte) (plen rlen : Nat) (script r r' : List Completion) (s t t' : State), s.idle →
    runSequence (handshake cb plen rlen) script s = .next (t, r) →
    runSequence [.request cb plen rlen] script s = .next (t', r') →
    t.status.busy = false → t'.status.busy = false →
    r = r' ∧ t'.sameButCmdStatus t ∧ t.status.done = t'.status.done ∧ t.status.err = t'.status.err ∧
      t.status.phase = (if t'.status.phase = .wait2 then .wait1 else t'.status.phase)

/-- R120: HANDSHAKE finishes, faults or is refused on a script exactly when REQUEST does. The refusal of a completion
outside the port's contract is the model's (log 11). -/
def Obligations.HandshakeEndsWhenRequestEnds : Prop :=
  ∀ (cb : Byte) (plen rlen : Nat) (script : List Completion) (s : State), s.idle → rlen + 9 ≤ s.cfg.bufCap →
    (∀ f, runSequence (handshake cb plen rlen) script s = .fault f ↔
      runSequence [.request cb plen rlen] script s = .fault f) ∧
    (∀ e, runSequence (handshake cb plen rlen) script s = .refused e ↔
      runSequence [.request cb plen rlen] script s = .refused e) ∧
    ((∃ t r, runSequence (handshake cb plen rlen) script s = .next (t, r) ∧ t.status.busy = false) ↔
      ∃ t r, runSequence [.request cb plen rlen] script s = .next (t, r) ∧ t.status.busy = false)

/-- R121: NOTIFY cb, plen ends as SEND does, with the same script left, except in CMD and LASTOP; and on every script it
finishes, faults or is refused exactly when SEND does. That the bytes drawn into ACKCAP by a failed ACK receive, and the
count of draws, are also equal in the two runs is the model's choice (log 6: a draw depends on the counter alone), and
the refusal of a completion outside the port's contract is the model's (log 11). -/
def Obligations.NotifyEndsAsSend : Prop :=
  ∀ (cb : Byte) (plen : Nat) (script : List Completion) (s : State), s.idle →
    (∀ t r t' r', runSequence (notify cb plen) script s = .next (t, r) →
      runSequence [.send cb plen] script s = .next (t', r') →
      t.status.busy = false → t'.status.busy = false →
      r = r' ∧ t'.sameButCmdStatus t ∧ t.status.done = t'.status.done ∧ t.status.err = t'.status.err ∧
        t.status.phase = t'.status.phase) ∧
    (∀ f, runSequence (notify cb plen) script s = .fault f ↔ runSequence [.send cb plen] script s = .fault f) ∧
    (∀ e, runSequence (notify cb plen) script s = .refused e ↔ runSequence [.send cb plen] script s = .refused e) ∧
    ((∃ t r, runSequence (notify cb plen) script s = .next (t, r) ∧ t.status.busy = false) ↔
      ∃ t r, runSequence [.send cb plen] script s = .next (t, r) ∧ t.status.busy = false)

/-! ## The NDEF parser (44_ndef_parser.md) -/

/-- R257: NBEGIN binds an input that NIN holds, in any parser state, and reads no byte of it; nothing else changes. -/
def Obligations.NbeginBindsTheInput : Prop :=
  ∀ (n : Nat) (s : State), s.idle → n ≤ s.cfg.ninCap →
    exec (.nbegin n) s = .next { s with
      cmd := encode (.nbegin n)
      status := { busy := false, done := true, err := .none, phase := .idle, lastop := 8 }
      nlen := BitVec.ofNat 20 n
      ncur := 0
      nstate := .fresh
      nitem := .none
      nrecOff := 0
      nrecLen := 0
      ntypeOff := 0
      ntypeLen := 0
      nvalOff := 0
      nvalLen := 0 }

/-- R251, R254, R258, R259: NNEXT in COMPLETE, or in READING with no input left, yields END and leaves COMPLETE. -/
def Obligations.NnextAtTheEndYieldsEnd : Prop :=
  ∀ s : State, s.idle →
    (s.nstate = .complete ∨ (s.nstate = .reading ∧ s.nlen.toNat ≤ s.ncur.toNat)) →
    exec .nnext s = .next { s with
      cmd := 0x00000009
      status := { busy := false, done := true, err := .none, phase := .idle, lastop := 9 }
      nstate := .complete
      nitem := .endItem
      nrecOff := 0
      nrecLen := 0
      ntypeOff := 0
      ntypeLen := 0
      nvalOff := 0
      nvalLen := 0 }

/-- 10_state.md R59: after reset, whatever the parameters, an NNEXT before any NBEGIN yields END. -/
def Obligations.NnextAfterResetYieldsEnd : Prop :=
  ∀ cfg : Config, ∃ t, exec .nnext (State.resetWith cfg) = .next t ∧ t.nitem = .endItem ∧ t.status.err = .none ∧
    itemWord t.nitem = 3 ∧ statusWord t.status = 0x00009002

/-- R260, R276: a bound input that starts with four 0xFF bytes yields NOT_FORMATTED and leaves COMPLETE with the cursor
unchanged; only CMD, STATUS and the NRP's registers change. An input shorter than 4 bytes never gives NOT_FORMATTED. -/
def Obligations.BlankTagIsNotFormatted : Prop :=
  (∀ s : State, s.idle → s.nstate = .fresh → 4 ≤ s.nlen.toNat →
    readBytes s.nin 0 4 = some [0xFF, 0xFF, 0xFF, 0xFF] →
    exec .nnext s = .next { s with
      cmd := 0x00000009
      status := { busy := false, done := true, err := .notFormatted, phase := .idle, lastop := 9 }
      nstate := .complete
      nitem := .error
      nrecOff := 0
      nrecLen := 0
      ntypeOff := 0
      ntypeLen := 0
      nvalOff := 0
      nvalLen := 0 }) ∧
  (∀ s t : State, s.idle → s.nstate = .fresh → s.nlen.toNat < 4 → exec .nnext s = .next t →
    t.status.err ≠ .notFormatted)

/-- R252, R261, R263: with 0x03 at byte 0 the first NNEXT continues as a record step at offset 2, whatever the input's
length and the other bytes; else, on a tag that is not blank, with 0x03 at byte 5 at offset 7: it answers what an NNEXT in
READING at that cursor answers. That the first holds too where byte 3 is unwritten and the record step does not read it
(a truncated header) rests on the order in which the blank check reads, the model's choice (log 10). -/
def Obligations.TlvStartHeuristic : Prop :=
  ∀ s : State, s.nstate = .fresh →
    (s.byteIs 0 (some 0x03) → exec .nnext s = exec .nnext { s with ncur := 2, nstate := .reading }) ∧
    (s.notBlank → ¬ s.byteIs 0 (some 0x03) → s.byteIs 5 (some 0x03) →
      exec .nnext s = exec .nnext { s with ncur := 7, nstate := .reading })

/-- R252, R262: with no NDEF TLV found, NNEXT yields END or is refused, as NO_TLV_ACTION says; a byte at or beyond NLEN is
ABSENT and is not 0x03, so this holds of every input too short to hold one, the empty one too. The parameter's value is
the implementation's (log 4). -/
def Obligations.NoTlvFoundFollowsTheParameter : Prop :=
  ∀ (s : State) (b5 : Option Byte), s.idle → s.nstate = .fresh → s.notBlank → ¬ s.byteIs 0 (some 0x03) →
    s.byteIs 5 b5 → b5 ≠ some 0x03 →
    (s.cfg.noTlvAction = .endItem → ∃ t, exec .nnext s = .next t ∧ t.nitem = .endItem ∧ t.nstate = .complete ∧
      t.status.err = .none ∧ t.ncur = s.ncur) ∧
    (s.cfg.noTlvAction = .refuse → exec .nnext s = .refused .noTlvFound)

/-- R264 to R274: NNEXT in READING over a record whose header `h` and whole length lie in the input, and whose type and
value are UTF-8 if it is a MIME record, yields it: kind by TNF, flags, the record's and (MIME only) the text's slices,
the cursor past the record, COMPLETE if ME is set; nothing else changes. The UTF-8 table is PRESUMED (log 5). -/
def Obligations.NnextYieldsTheRecord : Prop :=
  ∀ (s : State) (h : List Byte), s.idle → s.nstate = .reading →
    let cur := s.ncur.toNat
    let r := recordOf cur h
    let kind := kindOfTnf (tnf r.flags)
    readBytes s.nin cur h.length = some h → h.length = headerLen r.flags →
    cur + recTotal r ≤ s.nlen.toNat →
    (kind = .mimeMedia → ∃ ty val, readBytes s.nin (recTypeOff r) r.tlen = some ty ∧
      readBytes s.nin (recValOff r) r.plen = some val ∧ utf8 ty = true ∧ utf8 val = true) →
    exec .nnext s = .next { s with
      cmd := 0x00000009
      status := { busy := false, done := true, err := .none, phase := .idle, lastop := 9 }
      ncur := BitVec.ofNat 20 (cur + recTotal r)
      nstate := if flagME r.flags then .complete else .reading
      nitem := .record kind r.flags
      nrecOff := BitVec.ofNat 20 cur
      nrecLen := BitVec.ofNat 20 (recTotal r)
      ntypeOff := if kind = .mimeMedia then BitVec.ofNat 20 (cur + r.hlen) else 0
      ntypeLen := if kind = .mimeMedia then BitVec.ofNat 20 r.tlen else 0
      nvalOff := if kind = .mimeMedia then BitVec.ofNat 20 (cur + r.hlen + r.tlen + r.idlen) else 0
      nvalLen := if kind = .mimeMedia then BitVec.ofNat 20 r.plen else 0 }

/-- R265, R267, R270, R276: NNEXT in READING fails with UNDERFLOW_HEADER when the input ends inside the header, with
UNDERFLOW_PAYLOAD when it ends inside the record, with UTF8 when a MIME text is not UTF-8; each is an ERROR item, moves
to COMPLETE and leaves the cursor at the record. The UTF-8 table is PRESUMED (log 5). -/
def Obligations.NnextReportsTruncationAndBadText : Prop :=
  ∀ (s : State) (f : Byte), s.idle → s.nstate = .reading →
    let cur := s.ncur.toNat
    readByte s.nin cur = some f → cur < s.nlen.toNat →
    let failsWith := fun e : ErrCode => ∃ t, exec .nnext s = .next t ∧ t.status.err = e ∧ t.status.phase = .idle ∧
      t.status.busy = false ∧ t.status.done = true ∧ t.nitem = .error ∧ t.nstate = .complete ∧ t.ncur = s.ncur ∧
      t.nrecOff = 0 ∧ t.nrecLen = 0 ∧ t.textZero ∧ t.nlen = s.nlen ∧ s.sameFcu t ∧ t.nin = s.nin
    (s.nlen.toNat < cur + headerLen f → failsWith .underflowHeader) ∧
    (∀ h, readBytes s.nin cur (headerLen f) = some h → cur + headerLen f ≤ s.nlen.toNat →
      let r := recordOf cur h
      (s.nlen.toNat < cur + recTotal r → failsWith .underflowPayload) ∧
      (cur + recTotal r ≤ s.nlen.toNat → tnf f = 2 →
        ∀ ty val, readBytes s.nin (recTypeOff r) r.tlen = some ty → readBytes s.nin (recValOff r) r.plen = some val →
          ¬ (utf8 ty = true ∧ utf8 val = true) → failsWith .utf8))

/-- R278: `utf8(s)` holds exactly of the concatenations of the table's sequences. The table is PRESUMED (log 5). -/
def Obligations.Utf8IsTheTable : Prop :=
  ∀ b : List Byte, utf8 b = true ↔ ∃ q : List (List Byte), (∀ x ∈ q, utf8Sequence x = true) ∧ b = q.flatten

/-- R273, R274, R279 (a), (d): after NBEGIN of `n` bytes, `n / 3 + 1` NNEXT commands that all answer reach COMPLETE. -/
def Obligations.ParseEndsWithinTheInput : Prop :=
  ∀ (n : Nat) (s s0 t : State), s.cfg.wf → exec (.nbegin n) s = .next s0 →
    nnextTimes (n / 3 + 1) s0 = .next t → t.nstate = .complete

/-- R250, R279 (b), R356, 10_state.md R39, R49: what NNEXT answers depends on the bytes of NIN below NLEN, the cursor,
NSTATE and NO_TLV_ACTION alone: from two such states it stops alike, and if it answers, the NRP's registers and STATUS
end alike. -/
def Obligations.NnextDependsOnItsInputAlone : Prop :=
  ∀ s t : State, s.sameParse t →
    (∀ f, exec .nnext s = .fault f ↔ exec .nnext t = .fault f) ∧
    (∀ r, exec .nnext s = .refused r ↔ exec .nnext t = .refused r) ∧
    (∀ s', exec .nnext s = .next s' → ∃ t', exec .nnext t = .next t' ∧ s'.sameNrp t' ∧ t'.status = s'.status)

/-- R256, R354 to R356, R373: NBEGIN and NNEXT finish in their acceptance step, change CMD, STATUS and the NRP's
registers only, and write no memory. -/
def Obligations.NrpCommandsLeaveTheRestAlone : Prop :=
  ∀ (i : Instr) (s t : State), (i = .nnext ∨ ∃ n, i = .nbegin n) → s.idle → exec i s = .next t →
    t.status.busy = false ∧ t.status.done = true ∧ t.status.phase = .idle ∧ t.cmd = encode i ∧
      s.sameFcu t ∧ s.sameOwn t ∧ t.nin = s.nin ∧ t.latch = s.latch ∧ t.draws = s.draws

/-- R354 to R356, R87: FCU and HSQ commands, at acceptance and at every completion, leave the NRP's registers, STG and NIN
alone; WAITRDY and RDACK also leave SCR and RESULT alone. -/
def Obligations.FcuCommandsLeaveTheNrpAlone : Prop :=
  (∀ (i : Instr) (s t : State), usesTransport i = true → exec i s = .next t →
    s.sameNrp t ∧ s.sameOwn t ∧ t.stg = s.stg ∧ t.nin = s.nin ∧
      (i = .waitrdy ∨ i = .rdack → t.scr = s.scr ∧ t.result = s.result)) ∧
  (∀ (c : Completion) (s t : State), complete c s = .next t →
    s.sameNrp t ∧ s.sameOwn t ∧ t.stg = s.stg ∧ t.nin = s.nin ∧ t.cmd = s.cmd ∧
      (s.status.phase ≠ .recv → s.portOk → t.scr = s.scr ∧ t.result = s.result))

/-! ## The host's accesses (10_state.md, 20_memory.md) -/

/-- 10_state.md R44: offsets 0x38 and above, and offsets not a multiple of 4, read 0 and ignore writes, and so do writes to
0x04 to 0x34. -/
def Obligations.UnmappedOffsetsReadZeroIgnoreWrites : Prop :=
  ∀ (off : Nat) (v : Word) (s : State),
    ((0x38 ≤ off ∨ off % 4 ≠ 0) →
      readReg .word off s = .next { s with hostRead := .word 0 } ∧ writeReg .word off v s = .next s) ∧
    (0x04 ≤ off → off ≤ 0x34 → writeReg .word off v s = .next s)

/-- 10_state.md R45: the reserved bits of every register read 0. The words are computed from the fields (log 26); a read
of RESULT while BUSY is a draw (log 7). -/
def Obligations.ReservedBitsReadZero : Prop :=
  ∀ (s : State) (off : Nat), off ≤ 0x34 → off % 4 = 0 → windowWord s off &&& reservedBits off = 0

/-- 10_state.md R34, R35, R37, R40, 42_handshake.md R191, 60_exceptions.md R301: the fields of STATUS, RESULT, NSTATE and
NITEM stand at their bits, every phase, error, state, kind and tag under its number. -/
def Obligations.RegisterFieldsAtTheirBits : Prop :=
  (∀ t : Status, (statusWord t).extractLsb' 0 1 = BitVec.ofBool t.busy ∧
    (statusWord t).extractLsb' 1 1 = BitVec.ofBool t.done ∧ (statusWord t).extractLsb' 12 4 = t.lastop ∧
    (t.err, (statusWord t).extractLsb' 4 4) ∈ [(ErrCode.none, 0), (.transport, 1), (.tooMuchData, 2),
      (.notAcknowledged, 3), (.badResponse, 4), (.badChecksum, 5), (.bufferUnderflow, 6), (.syntaxErr, 7),
      (.notFormatted, 10), (.underflowHeader, 11), (.underflowPayload, 12), (.utf8, 13), (.illegalCommand, 15)] ∧
    (t.phase, (statusWord t).extractLsb' 8 3) ∈
      [(Phase.idle, 0), (.send, 1), (.wait1, 2), (.ack, 3), (.wait2, 4), (.recv, 5)]) ∧
  (∀ r : ResultReg, (resultWord r).extractLsb' 0 8 = r.rcmd ∧ (resultWord r).extractLsb' 8 9 = r.rplen ∧
    (resultWord r).extractLsb' 17 1 = BitVec.ofBool r.rvalid) ∧
  (nstateWord .fresh = 0 ∧ nstateWord .reading = 1 ∧ nstateWord .complete = 2) ∧
  (itemWord .none = 0 ∧ itemWord .error = 2 ∧ itemWord .endItem = 3) ∧
  (∀ (k : RecKind) (f : Byte), (itemWord (.record k f)).extractLsb' 0 2 = 1 ∧
    (k, (itemWord (.record k f)).extractLsb' 4 3) ∈ [(RecKind.empty, 0), (.wellKnown, 1), (.mimeMedia, 2),
      (.absoluteUri, 3), (.external, 4), (.unknown, 5), (.unexpected, 6)] ∧
    (itemWord (.record k f)).extractLsb' 8 8 = f)

/-- 20_memory.md R82, R88: an access to the window narrower than a word, and an access to a memory outside its range, are
refused. That these answers come before busyWrite (a narrow write to CMD while BUSY) and before inputWriteDuringParse (a
write beyond NIN during a parse) is the model's choice (log 15). -/
def Obligations.BadHostAccessesAreRefused : Prop :=
  ∀ (s : State) (w : Width) (off : Nat) (v : Word) (m : Space) (b : Byte),
    (w ≠ .word → readReg w off s = .refused .narrowAccess ∧ writeReg w off v s = .refused .narrowAccess) ∧
    (spaceCap s.cfg m ≤ off → readMem m off s = .refused .outOfRange ∧ writeMem m off b s = .refused .outOfRange)

/-- 10_state.md R32, R47 to R50, 20_memory.md R85, R88, R91: a word read of each offset of the window returns the register
there; a read of a written byte in range returns it, of an unwritten SCR byte it is a fault; while BUSY a read of RESULT
and of SCR returns some value, for an unwritten SCR byte too (log 28). A read changes nothing of the block: only what the
host has read and the count of drawn values, which are the model's own fields (log 6, log 14). -/
def Obligations.HostReadsReturnAndChangeNothing : Prop :=
  (∀ s : State,
    (∀ r ∈ [(0x00, s.cmd), (0x04, statusWord s.status), (0x08, resultWord s.result), (0x0C, s.terrinfo),
        (0x10, nstateWord s.nstate), (0x14, s.ncur.setWidth 32), (0x18, s.nlen.setWidth 32), (0x1C, itemWord s.nitem),
        (0x20, s.nrecOff.setWidth 32), (0x24, s.nrecLen.setWidth 32), (0x28, s.ntypeOff.setWidth 32),
        (0x2C, s.ntypeLen.setWidth 32), (0x30, s.nvalOff.setWidth 32), (0x34, s.nvalLen.setWidth 32)],
      ¬ (r.1 = 0x08 ∧ s.status.busy = true) → readReg .word r.1 s = .next { s with hostRead := .word r.2 }) ∧
    (∀ (off : Nat) (b : Byte),
      (off < s.cfg.bufCap → s.status.busy = false → readByte s.scr off = some b →
        readMem .scr off s = .next { s with hostRead := .byte b }) ∧
      (off < s.cfg.bufCap - 10 → readByte s.stg off = some b →
        readMem .stg off s = .next { s with hostRead := .byte b }) ∧
      (off < s.cfg.ninCap → readByte s.nin off = some b →
        readMem .nin off s = .next { s with hostRead := .byte b })) ∧
    (∀ off < s.cfg.bufCap, s.status.busy = false → readByte s.scr off = none →
      readMem .scr off s = .fault .unwrittenScratch) ∧
    (s.status.busy = true →
      (∃ w, readReg .word 0x08 s = .next { s with hostRead := .word w, draws := s.draws + 1 }) ∧
      ∀ off < s.cfg.bufCap, ∃ b, readMem .scr off s = .next { s with hostRead := .byte b, draws := s.draws + 1 })) ∧
  (∀ (s t : State) (a : HostAction), (∃ w off, a = .readReg w off) ∨ (∃ m off, a = .readMem m off) →
    hostStep a s = .next t → t = { s with hostRead := t.hostRead, draws := t.draws })

/-- 10_state.md R48 to R50, 70_reset_and_hazards.md R353: a host write in range stores the byte in STG always, in NIN while
NSTATE is COMPLETE (during a parse it is refused), and is ignored by SCR; every other byte reads as before. -/
def Obligations.HostMemoryWrites : Prop :=
  ∀ (s : State) (off : Nat) (b : Byte),
    (off < s.cfg.bufCap → writeMem .scr off b s = .next s) ∧
    (off < s.cfg.bufCap - 10 → ∃ m, writeMem .stg off b s = .next { s with stg := m } ∧ readByte m off = some b ∧
      ∀ k, k ≠ off → readByte m k = readByte s.stg k) ∧
    (off < s.cfg.ninCap →
      (s.nstate = .complete → ∃ m, writeMem .nin off b s = .next { s with nin := m } ∧ readByte m off = some b ∧
        ∀ k, k ≠ off → readByte m k = readByte s.nin k) ∧
      (s.nstate ≠ .complete → writeMem .nin off b s = .refused .inputWriteDuringParse))

/-- 20_memory.md R87, 70_reset_and_hazards.md R350: a host write to STG and a completion of the command in progress can be
exchanged: the write changes no part of the command. That a failed receive draws the same bytes in both orders is the
model's choice (log 6: a draw depends on the counter alone). -/
def Obligations.StagingWriteCommutesWithCompletion : Prop :=
  ∀ (s : State) (c : Completion) (off : Nat) (b : Byte), off < s.cfg.bufCap - 10 →
    andThen (writeMem .stg off b s) (complete c) = andThen (complete c s) (writeMem .stg off b)

/-! ## Reset (70_reset_and_hazards.md) -/

/-- R341, 10_state.md R58: the reset input leaves every register, memory, mark and the pending call as after reset, from
any state, the parameters unchanged; every byte of memory then read by the host faults. For host reads of STG and NIN
the fault is the model's reading (log 9), and what a reset keeps of the model's own fields its choice (log 20). -/
def Obligations.ResetRestoresEverything : Prop :=
  ∀ s : State, ∃ t, stepEvent .reset s = .next t ∧ t.asReset ∧ t.cfg = s.cfg ∧ t.events = s.events ∧
    ∀ m off, off < spaceCap t.cfg m → readMem m off t = .fault (unwrittenFault m)

/-- 10_state.md R58: the state after reset. -/
def Obligations.ResetState : Prop := ∀ cfg : Config, (State.resetWith cfg).asReset

/-- R342, 20_memory.md R99: after a reset no completion, of the abandoned call or any other, has an effect. The event
`late` and the answer to an undeliverable completion are the model's (log 11, log 12). -/
def Obligations.ResetAbandonsTheCall : Prop :=
  ∀ (s : State) (c : Completion), complete c (resetBlock s) = .next (resetBlock s) ∧
    stepEvent (.late c) s = .next s

/-! ## Invariants of every step -/

/-- 10_state.md, 42_handshake.md: the invariant holds after reset, whatever legal parameters the block has. -/
def Obligations.ResetMeetsTheInvariant : Prop := ∀ cfg : Config, cfg.wf → (State.resetWith cfg).Inv

/-- 10_state.md R34, R35, R40 to R46, R51 to R53; 42_handshake.md R191 to R193; 60_exceptions.md R301, R306;
44_ndef_parser.md R251, R268: every step from a state that meets the invariant leads to one that meets it. The parts
about the latch's form and the memories' lists are about the model's own data (log 9, log 27). -/
def Obligations.StepKeepsTheInvariant : Prop := ∀ s t : State, s.Inv → step s = .next t → t.Inv

/-- 10_state.md R47 to R50: from any state whose memories are in canonical form, so are they after every step. The list
form is the model's (log 9). -/
def Obligations.StepKeepsMemoriesCanonical : Prop :=
  ∀ s t : State, s.scr.wf ∧ s.stg.wf ∧ s.nin.wf → step s = .next t → t.scr.wf ∧ t.stg.wf ∧ t.nin.wf

/-- 00_scope.md R7 to R10: no step changes a parameter. That the parameters stand in the state is the model's choice
(log 2). -/
def Obligations.StepKeepsTheParameters : Prop := ∀ s t : State, step s = .next t → t.cfg = s.cfg

/-- 20_memory.md R99, 42_handshake.md R199: while BUSY, nothing the host does moves the command in progress: CMD, STATUS,
RESULT, TERRINFO, SCR, ACKCAP, the pending call and the latched operands stay. -/
def Obligations.HostCannotMoveACommand : Prop :=
  ∀ (s t : State) (a : HostAction), s.status.busy = true → hostStep a s = .next t →
    t.cmd = s.cmd ∧ t.status = s.status ∧ t.result = s.result ∧ t.terrinfo = s.terrinfo ∧ t.scr = s.scr ∧
      t.ackcap = s.ackcap ∧ t.pending = s.pending ∧ t.latch = s.latch

/-- 42_handshake.md R199, R342: BUSY goes from 1 to 0 only by a completion of the pending call or by a reset. -/
def Obligations.BusyEndsOnlyByCompletionOrReset : Prop :=
  ∀ s t : State, s.status.busy = true → step s = .next t → t.status.busy = false →
    ∃ rest, s.events = .reset :: rest ∨ ∃ c, s.events = .transport c :: rest

/-! ## The companion (43_response_decode.md) -/

/-- R223, R224: a payload whose length is not the declared one is DECODER for every type but unit, which always
succeeds. -/
def Obligations.DecodeChecksTheLength : Prop :=
  ∀ (t : ResultType) (d : List Byte),
    (t ≠ .unit → d.length ≠ declaredLen t → decodePayload t d = .error .decoder) ∧
      decodePayload .unit d = .ok .unit

/-- R228: the declared length of a UID response is 19; a payload of that length decodes to a UID exactly when it names one
target and at most 7 UID bytes, and the UID is those bytes zero-padded to 7. -/
def Obligations.UidIsZeroPadded : Prop :=
  declaredLen .cardUid = 19 ∧ ∀ d : List Byte, d.length = 19 →
    ∃ u, decodePayload .cardUid d = .ok (.uid u) ∧
      (u = none ↔ (d[0]? ≠ some 1 ∨ 7 < (at8 d 5).toNat)) ∧
      ∀ v, u = some v → v.length = 7 ∧
        ∀ k < 7, v[k]? = if k < (at8 d 5).toNat then d[6 + k]? else some 0
end

