-- ==== Sys2Proof/Laws/Decode.lean ====
section
/-! SUPPORT. Laws of the encoding: the decoder answers well-formed instructions only. -/

namespace Sys2Proof

theorem field_lt (w : Word) (lo width : Nat) : field w lo width < 2 ^ width :=
  Nat.mod_lt _ (Nat.two_pow_pos width)

theorem legalIf_ok {ok : Bool} {opc : Nat} {i j : Instr} : legalIf ok opc i = .ok j ↔ ok = true ∧ i = j := by
  cases ok <;> simp [legalIf]

/-- Every operand the decoder reads fits its field (30_encoding.md R114). -/
theorem decode_wf {w : Word} {i : Instr} (h : decode w = .ok i) : i.wf = true := by
  have h9 : l1Of w < 512 := field_lt w 12 9
  have h9' : l2Of w < 512 := field_lt w 21 9
  have h20 : nlenOf w < 1048576 := field_lt w 12 20
  unfold decode at h
  split at h <;> first | contradiction | (obtain ⟨-, rfl⟩ := legalIf_ok.1 h; simp [Instr.wf, h9, h9', h20])

end Sys2Proof
end

