-- ==== Sys2Proof/Laws/State.lean ====
section
/-! SUPPORT. What each update of the state leaves in each field: one lemma per field per update, so that no proof unfolds a
record update. -/

namespace Sys2Proof.Machine

/-! `acceptWord`: CMD and STATUS (60_exceptions.md R305). -/

@[simp] theorem acceptWord_cfg (w : Word) (busy : Bool) (s : State) : (acceptWord w busy s).cfg = s.cfg := rfl
@[simp] theorem acceptWord_cmd (w : Word) (busy : Bool) (s : State) : (acceptWord w busy s).cmd = w := rfl
@[simp] theorem acceptWord_status (w : Word) (busy : Bool) (s : State) :
    (acceptWord w busy s).status =
      acceptStatus w busy s.status := rfl
@[simp] theorem acceptWord_result (w : Word) (busy : Bool) (s : State) : (acceptWord w busy s).result = s.result := rfl
@[simp] theorem acceptWord_terrinfo (w : Word) (busy : Bool) (s : State) :
    (acceptWord w busy s).terrinfo =
      s.terrinfo := rfl
@[simp] theorem acceptWord_nstate (w : Word) (busy : Bool) (s : State) : (acceptWord w busy s).nstate = s.nstate := rfl
@[simp] theorem acceptWord_ncur (w : Word) (busy : Bool) (s : State) : (acceptWord w busy s).ncur = s.ncur := rfl
@[simp] theorem acceptWord_nlen (w : Word) (busy : Bool) (s : State) : (acceptWord w busy s).nlen = s.nlen := rfl
@[simp] theorem acceptWord_nitem (w : Word) (busy : Bool) (s : State) : (acceptWord w busy s).nitem = s.nitem := rfl
@[simp] theorem acceptWord_nrecOff (w : Word) (busy : Bool) (s : State) :
    (acceptWord w busy s).nrecOff =
      s.nrecOff := rfl
@[simp] theorem acceptWord_nrecLen (w : Word) (busy : Bool) (s : State) :
    (acceptWord w busy s).nrecLen =
      s.nrecLen := rfl
@[simp] theorem acceptWord_ntypeOff (w : Word) (busy : Bool) (s : State) :
    (acceptWord w busy s).ntypeOff =
      s.ntypeOff := rfl
@[simp] theorem acceptWord_ntypeLen (w : Word) (busy : Bool) (s : State) :
    (acceptWord w busy s).ntypeLen =
      s.ntypeLen := rfl
@[simp] theorem acceptWord_nvalOff (w : Word) (busy : Bool) (s : State) :
    (acceptWord w busy s).nvalOff =
      s.nvalOff := rfl
@[simp] theorem acceptWord_nvalLen (w : Word) (busy : Bool) (s : State) :
    (acceptWord w busy s).nvalLen =
      s.nvalLen := rfl
@[simp] theorem acceptWord_scr (w : Word) (busy : Bool) (s : State) : (acceptWord w busy s).scr = s.scr := rfl
@[simp] theorem acceptWord_stg (w : Word) (busy : Bool) (s : State) : (acceptWord w busy s).stg = s.stg := rfl
@[simp] theorem acceptWord_nin (w : Word) (busy : Bool) (s : State) : (acceptWord w busy s).nin = s.nin := rfl
@[simp] theorem acceptWord_pending (w : Word) (busy : Bool) (s : State) :
    (acceptWord w busy s).pending =
      s.pending := rfl
@[simp] theorem acceptWord_ackcap (w : Word) (busy : Bool) (s : State) : (acceptWord w busy s).ackcap = s.ackcap := rfl
@[simp] theorem acceptWord_latch (w : Word) (busy : Bool) (s : State) : (acceptWord w busy s).latch = s.latch := rfl
@[simp] theorem acceptWord_draws (w : Word) (busy : Bool) (s : State) : (acceptWord w busy s).draws = s.draws := rfl
@[simp] theorem acceptWord_hostRead (w : Word) (busy : Bool) (s : State) :
    (acceptWord w busy s).hostRead =
      s.hostRead := rfl
@[simp] theorem acceptWord_events (w : Word) (busy : Bool) (s : State) : (acceptWord w busy s).events = s.events := rfl

/-! `accept`: CMD, STATUS, TERRINFO, RESULT and the latch (R305). -/

@[simp] theorem accept_cfg (i : Instr) (s : State) : (accept i s).cfg = s.cfg := rfl
@[simp] theorem accept_cmd (i : Instr) (s : State) : (accept i s).cmd = encode i := rfl
@[simp] theorem accept_status (i : Instr) (s : State) :
    (accept i s).status =
      acceptStatus (encode i) (usesTransport i) s.status := rfl
@[simp] theorem accept_result (i : Instr) (s : State) :
    (accept i s).result =
      if clearsResult i then { rcmd := 0, rplen := 0, rvalid := false } else s.result := rfl
@[simp] theorem accept_terrinfo (i : Instr) (s : State) :
    (accept i s).terrinfo =
      if usesTransport i then 0 else s.terrinfo := rfl
@[simp] theorem accept_nstate (i : Instr) (s : State) : (accept i s).nstate = s.nstate := rfl
@[simp] theorem accept_ncur (i : Instr) (s : State) : (accept i s).ncur = s.ncur := rfl
@[simp] theorem accept_nlen (i : Instr) (s : State) : (accept i s).nlen = s.nlen := rfl
@[simp] theorem accept_nitem (i : Instr) (s : State) : (accept i s).nitem = s.nitem := rfl
@[simp] theorem accept_nrecOff (i : Instr) (s : State) : (accept i s).nrecOff = s.nrecOff := rfl
@[simp] theorem accept_nrecLen (i : Instr) (s : State) : (accept i s).nrecLen = s.nrecLen := rfl
@[simp] theorem accept_ntypeOff (i : Instr) (s : State) : (accept i s).ntypeOff = s.ntypeOff := rfl
@[simp] theorem accept_ntypeLen (i : Instr) (s : State) : (accept i s).ntypeLen = s.ntypeLen := rfl
@[simp] theorem accept_nvalOff (i : Instr) (s : State) : (accept i s).nvalOff = s.nvalOff := rfl
@[simp] theorem accept_nvalLen (i : Instr) (s : State) : (accept i s).nvalLen = s.nvalLen := rfl
@[simp] theorem accept_scr (i : Instr) (s : State) : (accept i s).scr = s.scr := rfl
@[simp] theorem accept_stg (i : Instr) (s : State) : (accept i s).stg = s.stg := rfl
@[simp] theorem accept_nin (i : Instr) (s : State) : (accept i s).nin = s.nin := rfl
@[simp] theorem accept_pending (i : Instr) (s : State) : (accept i s).pending = s.pending := rfl
@[simp] theorem accept_ackcap (i : Instr) (s : State) : (accept i s).ackcap = s.ackcap := rfl
@[simp] theorem accept_latch (i : Instr) (s : State) : (accept i s).latch = some { instr := i, payload := [] } := rfl
@[simp] theorem accept_draws (i : Instr) (s : State) : (accept i s).draws = s.draws := rfl
@[simp] theorem accept_hostRead (i : Instr) (s : State) : (accept i s).hostRead = s.hostRead := rfl
@[simp] theorem accept_events (i : Instr) (s : State) : (accept i s).events = s.events := rfl

/-! `finish`: STATUS and the latch (R305). -/

@[simp] theorem finish_cfg (s : State) : (finish s).cfg = s.cfg := rfl
@[simp] theorem finish_cmd (s : State) : (finish s).cmd = s.cmd := rfl
@[simp] theorem finish_status (s : State) : (finish s).status = finishStatus s.status := rfl
@[simp] theorem finish_result (s : State) : (finish s).result = s.result := rfl
@[simp] theorem finish_terrinfo (s : State) : (finish s).terrinfo = s.terrinfo := rfl
@[simp] theorem finish_nstate (s : State) : (finish s).nstate = s.nstate := rfl
@[simp] theorem finish_ncur (s : State) : (finish s).ncur = s.ncur := rfl
@[simp] theorem finish_nlen (s : State) : (finish s).nlen = s.nlen := rfl
@[simp] theorem finish_nitem (s : State) : (finish s).nitem = s.nitem := rfl
@[simp] theorem finish_nrecOff (s : State) : (finish s).nrecOff = s.nrecOff := rfl
@[simp] theorem finish_nrecLen (s : State) : (finish s).nrecLen = s.nrecLen := rfl
@[simp] theorem finish_ntypeOff (s : State) : (finish s).ntypeOff = s.ntypeOff := rfl
@[simp] theorem finish_ntypeLen (s : State) : (finish s).ntypeLen = s.ntypeLen := rfl
@[simp] theorem finish_nvalOff (s : State) : (finish s).nvalOff = s.nvalOff := rfl
@[simp] theorem finish_nvalLen (s : State) : (finish s).nvalLen = s.nvalLen := rfl
@[simp] theorem finish_scr (s : State) : (finish s).scr = s.scr := rfl
@[simp] theorem finish_stg (s : State) : (finish s).stg = s.stg := rfl
@[simp] theorem finish_nin (s : State) : (finish s).nin = s.nin := rfl
@[simp] theorem finish_pending (s : State) : (finish s).pending = s.pending := rfl
@[simp] theorem finish_ackcap (s : State) : (finish s).ackcap = s.ackcap := rfl
@[simp] theorem finish_latch (s : State) : (finish s).latch = none := rfl
@[simp] theorem finish_draws (s : State) : (finish s).draws = s.draws := rfl
@[simp] theorem finish_hostRead (s : State) : (finish s).hostRead = s.hostRead := rfl
@[simp] theorem finish_events (s : State) : (finish s).events = s.events := rfl

/-! `raiseErr`: STATUS and the latch (R305). -/

@[simp] theorem raiseErr_cfg (e : ErrCode) (s : State) : (raiseErr e s).cfg = s.cfg := rfl
@[simp] theorem raiseErr_cmd (e : ErrCode) (s : State) : (raiseErr e s).cmd = s.cmd := rfl
@[simp] theorem raiseErr_status (e : ErrCode) (s : State) : (raiseErr e s).status = raiseStatus e s.status := rfl
@[simp] theorem raiseErr_result (e : ErrCode) (s : State) : (raiseErr e s).result = s.result := rfl
@[simp] theorem raiseErr_terrinfo (e : ErrCode) (s : State) : (raiseErr e s).terrinfo = s.terrinfo := rfl
@[simp] theorem raiseErr_nstate (e : ErrCode) (s : State) : (raiseErr e s).nstate = s.nstate := rfl
@[simp] theorem raiseErr_ncur (e : ErrCode) (s : State) : (raiseErr e s).ncur = s.ncur := rfl
@[simp] theorem raiseErr_nlen (e : ErrCode) (s : State) : (raiseErr e s).nlen = s.nlen := rfl
@[simp] theorem raiseErr_nitem (e : ErrCode) (s : State) : (raiseErr e s).nitem = s.nitem := rfl
@[simp] theorem raiseErr_nrecOff (e : ErrCode) (s : State) : (raiseErr e s).nrecOff = s.nrecOff := rfl
@[simp] theorem raiseErr_nrecLen (e : ErrCode) (s : State) : (raiseErr e s).nrecLen = s.nrecLen := rfl
@[simp] theorem raiseErr_ntypeOff (e : ErrCode) (s : State) : (raiseErr e s).ntypeOff = s.ntypeOff := rfl
@[simp] theorem raiseErr_ntypeLen (e : ErrCode) (s : State) : (raiseErr e s).ntypeLen = s.ntypeLen := rfl
@[simp] theorem raiseErr_nvalOff (e : ErrCode) (s : State) : (raiseErr e s).nvalOff = s.nvalOff := rfl
@[simp] theorem raiseErr_nvalLen (e : ErrCode) (s : State) : (raiseErr e s).nvalLen = s.nvalLen := rfl
@[simp] theorem raiseErr_scr (e : ErrCode) (s : State) : (raiseErr e s).scr = s.scr := rfl
@[simp] theorem raiseErr_stg (e : ErrCode) (s : State) : (raiseErr e s).stg = s.stg := rfl
@[simp] theorem raiseErr_nin (e : ErrCode) (s : State) : (raiseErr e s).nin = s.nin := rfl
@[simp] theorem raiseErr_pending (e : ErrCode) (s : State) : (raiseErr e s).pending = s.pending := rfl
@[simp] theorem raiseErr_ackcap (e : ErrCode) (s : State) : (raiseErr e s).ackcap = s.ackcap := rfl
@[simp] theorem raiseErr_latch (e : ErrCode) (s : State) : (raiseErr e s).latch = none := rfl
@[simp] theorem raiseErr_draws (e : ErrCode) (s : State) : (raiseErr e s).draws = s.draws := rfl
@[simp] theorem raiseErr_hostRead (e : ErrCode) (s : State) : (raiseErr e s).hostRead = s.hostRead := rfl
@[simp] theorem raiseErr_events (e : ErrCode) (s : State) : (raiseErr e s).events = s.events := rfl

/-! `setPhase`: STATUS.PHASE. -/

@[simp] theorem setPhase_cfg (p : Phase) (s : State) : (setPhase p s).cfg = s.cfg := rfl
@[simp] theorem setPhase_cmd (p : Phase) (s : State) : (setPhase p s).cmd = s.cmd := rfl
@[simp] theorem setPhase_status (p : Phase) (s : State) : (setPhase p s).status = { s.status with phase := p } := rfl
@[simp] theorem setPhase_result (p : Phase) (s : State) : (setPhase p s).result = s.result := rfl
@[simp] theorem setPhase_terrinfo (p : Phase) (s : State) : (setPhase p s).terrinfo = s.terrinfo := rfl
@[simp] theorem setPhase_nstate (p : Phase) (s : State) : (setPhase p s).nstate = s.nstate := rfl
@[simp] theorem setPhase_ncur (p : Phase) (s : State) : (setPhase p s).ncur = s.ncur := rfl
@[simp] theorem setPhase_nlen (p : Phase) (s : State) : (setPhase p s).nlen = s.nlen := rfl
@[simp] theorem setPhase_nitem (p : Phase) (s : State) : (setPhase p s).nitem = s.nitem := rfl
@[simp] theorem setPhase_nrecOff (p : Phase) (s : State) : (setPhase p s).nrecOff = s.nrecOff := rfl
@[simp] theorem setPhase_nrecLen (p : Phase) (s : State) : (setPhase p s).nrecLen = s.nrecLen := rfl
@[simp] theorem setPhase_ntypeOff (p : Phase) (s : State) : (setPhase p s).ntypeOff = s.ntypeOff := rfl
@[simp] theorem setPhase_ntypeLen (p : Phase) (s : State) : (setPhase p s).ntypeLen = s.ntypeLen := rfl
@[simp] theorem setPhase_nvalOff (p : Phase) (s : State) : (setPhase p s).nvalOff = s.nvalOff := rfl
@[simp] theorem setPhase_nvalLen (p : Phase) (s : State) : (setPhase p s).nvalLen = s.nvalLen := rfl
@[simp] theorem setPhase_scr (p : Phase) (s : State) : (setPhase p s).scr = s.scr := rfl
@[simp] theorem setPhase_stg (p : Phase) (s : State) : (setPhase p s).stg = s.stg := rfl
@[simp] theorem setPhase_nin (p : Phase) (s : State) : (setPhase p s).nin = s.nin := rfl
@[simp] theorem setPhase_pending (p : Phase) (s : State) : (setPhase p s).pending = s.pending := rfl
@[simp] theorem setPhase_ackcap (p : Phase) (s : State) : (setPhase p s).ackcap = s.ackcap := rfl
@[simp] theorem setPhase_latch (p : Phase) (s : State) : (setPhase p s).latch = s.latch := rfl
@[simp] theorem setPhase_draws (p : Phase) (s : State) : (setPhase p s).draws = s.draws := rfl
@[simp] theorem setPhase_hostRead (p : Phase) (s : State) : (setPhase p s).hostRead = s.hostRead := rfl
@[simp] theorem setPhase_events (p : Phase) (s : State) : (setPhase p s).events = s.events := rfl

/-! `issue`: the pending call. -/

@[simp] theorem issue_cfg (c : Call) (s : State) : (issue c s).cfg = s.cfg := rfl
@[simp] theorem issue_cmd (c : Call) (s : State) : (issue c s).cmd = s.cmd := rfl
@[simp] theorem issue_status (c : Call) (s : State) : (issue c s).status = s.status := rfl
@[simp] theorem issue_result (c : Call) (s : State) : (issue c s).result = s.result := rfl
@[simp] theorem issue_terrinfo (c : Call) (s : State) : (issue c s).terrinfo = s.terrinfo := rfl
@[simp] theorem issue_nstate (c : Call) (s : State) : (issue c s).nstate = s.nstate := rfl
@[simp] theorem issue_ncur (c : Call) (s : State) : (issue c s).ncur = s.ncur := rfl
@[simp] theorem issue_nlen (c : Call) (s : State) : (issue c s).nlen = s.nlen := rfl
@[simp] theorem issue_nitem (c : Call) (s : State) : (issue c s).nitem = s.nitem := rfl
@[simp] theorem issue_nrecOff (c : Call) (s : State) : (issue c s).nrecOff = s.nrecOff := rfl
@[simp] theorem issue_nrecLen (c : Call) (s : State) : (issue c s).nrecLen = s.nrecLen := rfl
@[simp] theorem issue_ntypeOff (c : Call) (s : State) : (issue c s).ntypeOff = s.ntypeOff := rfl
@[simp] theorem issue_ntypeLen (c : Call) (s : State) : (issue c s).ntypeLen = s.ntypeLen := rfl
@[simp] theorem issue_nvalOff (c : Call) (s : State) : (issue c s).nvalOff = s.nvalOff := rfl
@[simp] theorem issue_nvalLen (c : Call) (s : State) : (issue c s).nvalLen = s.nvalLen := rfl
@[simp] theorem issue_scr (c : Call) (s : State) : (issue c s).scr = s.scr := rfl
@[simp] theorem issue_stg (c : Call) (s : State) : (issue c s).stg = s.stg := rfl
@[simp] theorem issue_nin (c : Call) (s : State) : (issue c s).nin = s.nin := rfl
@[simp] theorem issue_pending (c : Call) (s : State) : (issue c s).pending = some c := rfl
@[simp] theorem issue_ackcap (c : Call) (s : State) : (issue c s).ackcap = s.ackcap := rfl
@[simp] theorem issue_latch (c : Call) (s : State) : (issue c s).latch = s.latch := rfl
@[simp] theorem issue_draws (c : Call) (s : State) : (issue c s).draws = s.draws := rfl
@[simp] theorem issue_hostRead (c : Call) (s : State) : (issue c s).hostRead = s.hostRead := rfl
@[simp] theorem issue_events (c : Call) (s : State) : (issue c s).events = s.events := rfl

/-! `takeCall`: the pending call. -/

@[simp] theorem takeCall_cfg (s : State) : (takeCall s).cfg = s.cfg := rfl
@[simp] theorem takeCall_cmd (s : State) : (takeCall s).cmd = s.cmd := rfl
@[simp] theorem takeCall_status (s : State) : (takeCall s).status = s.status := rfl
@[simp] theorem takeCall_result (s : State) : (takeCall s).result = s.result := rfl
@[simp] theorem takeCall_terrinfo (s : State) : (takeCall s).terrinfo = s.terrinfo := rfl
@[simp] theorem takeCall_nstate (s : State) : (takeCall s).nstate = s.nstate := rfl
@[simp] theorem takeCall_ncur (s : State) : (takeCall s).ncur = s.ncur := rfl
@[simp] theorem takeCall_nlen (s : State) : (takeCall s).nlen = s.nlen := rfl
@[simp] theorem takeCall_nitem (s : State) : (takeCall s).nitem = s.nitem := rfl
@[simp] theorem takeCall_nrecOff (s : State) : (takeCall s).nrecOff = s.nrecOff := rfl
@[simp] theorem takeCall_nrecLen (s : State) : (takeCall s).nrecLen = s.nrecLen := rfl
@[simp] theorem takeCall_ntypeOff (s : State) : (takeCall s).ntypeOff = s.ntypeOff := rfl
@[simp] theorem takeCall_ntypeLen (s : State) : (takeCall s).ntypeLen = s.ntypeLen := rfl
@[simp] theorem takeCall_nvalOff (s : State) : (takeCall s).nvalOff = s.nvalOff := rfl
@[simp] theorem takeCall_nvalLen (s : State) : (takeCall s).nvalLen = s.nvalLen := rfl
@[simp] theorem takeCall_scr (s : State) : (takeCall s).scr = s.scr := rfl
@[simp] theorem takeCall_stg (s : State) : (takeCall s).stg = s.stg := rfl
@[simp] theorem takeCall_nin (s : State) : (takeCall s).nin = s.nin := rfl
@[simp] theorem takeCall_pending (s : State) : (takeCall s).pending = none := rfl
@[simp] theorem takeCall_ackcap (s : State) : (takeCall s).ackcap = s.ackcap := rfl
@[simp] theorem takeCall_latch (s : State) : (takeCall s).latch = s.latch := rfl
@[simp] theorem takeCall_draws (s : State) : (takeCall s).draws = s.draws := rfl
@[simp] theorem takeCall_hostRead (s : State) : (takeCall s).hostRead = s.hostRead := rfl
@[simp] theorem takeCall_events (s : State) : (takeCall s).events = s.events := rfl

/-! `failTransport`: TERRINFO, STATUS and the latch (R303). -/

@[simp] theorem failTransport_cfg (info : Word) (s : State) : (failTransport info s).cfg = s.cfg := rfl
@[simp] theorem failTransport_cmd (info : Word) (s : State) : (failTransport info s).cmd = s.cmd := rfl
@[simp] theorem failTransport_status (info : Word) (s : State) :
    (failTransport info s).status =
      raiseStatus .transport s.status := rfl
@[simp] theorem failTransport_result (info : Word) (s : State) : (failTransport info s).result = s.result := rfl
@[simp] theorem failTransport_terrinfo (info : Word) (s : State) : (failTransport info s).terrinfo = info := rfl
@[simp] theorem failTransport_nstate (info : Word) (s : State) : (failTransport info s).nstate = s.nstate := rfl
@[simp] theorem failTransport_ncur (info : Word) (s : State) : (failTransport info s).ncur = s.ncur := rfl
@[simp] theorem failTransport_nlen (info : Word) (s : State) : (failTransport info s).nlen = s.nlen := rfl
@[simp] theorem failTransport_nitem (info : Word) (s : State) : (failTransport info s).nitem = s.nitem := rfl
@[simp] theorem failTransport_nrecOff (info : Word) (s : State) : (failTransport info s).nrecOff = s.nrecOff := rfl
@[simp] theorem failTransport_nrecLen (info : Word) (s : State) : (failTransport info s).nrecLen = s.nrecLen := rfl
@[simp] theorem failTransport_ntypeOff (info : Word) (s : State) : (failTransport info s).ntypeOff = s.ntypeOff := rfl
@[simp] theorem failTransport_ntypeLen (info : Word) (s : State) : (failTransport info s).ntypeLen = s.ntypeLen := rfl
@[simp] theorem failTransport_nvalOff (info : Word) (s : State) : (failTransport info s).nvalOff = s.nvalOff := rfl
@[simp] theorem failTransport_nvalLen (info : Word) (s : State) : (failTransport info s).nvalLen = s.nvalLen := rfl
@[simp] theorem failTransport_scr (info : Word) (s : State) : (failTransport info s).scr = s.scr := rfl
@[simp] theorem failTransport_stg (info : Word) (s : State) : (failTransport info s).stg = s.stg := rfl
@[simp] theorem failTransport_nin (info : Word) (s : State) : (failTransport info s).nin = s.nin := rfl
@[simp] theorem failTransport_pending (info : Word) (s : State) : (failTransport info s).pending = s.pending := rfl
@[simp] theorem failTransport_ackcap (info : Word) (s : State) : (failTransport info s).ackcap = s.ackcap := rfl
@[simp] theorem failTransport_latch (info : Word) (s : State) : (failTransport info s).latch = none := rfl
@[simp] theorem failTransport_draws (info : Word) (s : State) : (failTransport info s).draws = s.draws := rfl
@[simp] theorem failTransport_hostRead (info : Word) (s : State) : (failTransport info s).hostRead = s.hostRead := rfl
@[simp] theorem failTransport_events (info : Word) (s : State) : (failTransport info s).events = s.events := rfl

/-! `latchPayload`: the latch. -/

@[simp] theorem latchPayload_cfg (p : List Byte) (s : State) : (latchPayload p s).cfg = s.cfg := rfl
@[simp] theorem latchPayload_cmd (p : List Byte) (s : State) : (latchPayload p s).cmd = s.cmd := rfl
@[simp] theorem latchPayload_status (p : List Byte) (s : State) : (latchPayload p s).status = s.status := rfl
@[simp] theorem latchPayload_result (p : List Byte) (s : State) : (latchPayload p s).result = s.result := rfl
@[simp] theorem latchPayload_terrinfo (p : List Byte) (s : State) : (latchPayload p s).terrinfo = s.terrinfo := rfl
@[simp] theorem latchPayload_nstate (p : List Byte) (s : State) : (latchPayload p s).nstate = s.nstate := rfl
@[simp] theorem latchPayload_ncur (p : List Byte) (s : State) : (latchPayload p s).ncur = s.ncur := rfl
@[simp] theorem latchPayload_nlen (p : List Byte) (s : State) : (latchPayload p s).nlen = s.nlen := rfl
@[simp] theorem latchPayload_nitem (p : List Byte) (s : State) : (latchPayload p s).nitem = s.nitem := rfl
@[simp] theorem latchPayload_nrecOff (p : List Byte) (s : State) : (latchPayload p s).nrecOff = s.nrecOff := rfl
@[simp] theorem latchPayload_nrecLen (p : List Byte) (s : State) : (latchPayload p s).nrecLen = s.nrecLen := rfl
@[simp] theorem latchPayload_ntypeOff (p : List Byte) (s : State) : (latchPayload p s).ntypeOff = s.ntypeOff := rfl
@[simp] theorem latchPayload_ntypeLen (p : List Byte) (s : State) : (latchPayload p s).ntypeLen = s.ntypeLen := rfl
@[simp] theorem latchPayload_nvalOff (p : List Byte) (s : State) : (latchPayload p s).nvalOff = s.nvalOff := rfl
@[simp] theorem latchPayload_nvalLen (p : List Byte) (s : State) : (latchPayload p s).nvalLen = s.nvalLen := rfl
@[simp] theorem latchPayload_scr (p : List Byte) (s : State) : (latchPayload p s).scr = s.scr := rfl
@[simp] theorem latchPayload_stg (p : List Byte) (s : State) : (latchPayload p s).stg = s.stg := rfl
@[simp] theorem latchPayload_nin (p : List Byte) (s : State) : (latchPayload p s).nin = s.nin := rfl
@[simp] theorem latchPayload_pending (p : List Byte) (s : State) : (latchPayload p s).pending = s.pending := rfl
@[simp] theorem latchPayload_ackcap (p : List Byte) (s : State) : (latchPayload p s).ackcap = s.ackcap := rfl
@[simp] theorem latchPayload_latch (p : List Byte) (s : State) :
    (latchPayload p s).latch =
      s.latch.map fun l => { l with payload := p } := rfl
@[simp] theorem latchPayload_draws (p : List Byte) (s : State) : (latchPayload p s).draws = s.draws := rfl
@[simp] theorem latchPayload_hostRead (p : List Byte) (s : State) : (latchPayload p s).hostRead = s.hostRead := rfl
@[simp] theorem latchPayload_events (p : List Byte) (s : State) : (latchPayload p s).events = s.events := rfl

/-! `writeScr`: SCR. -/

@[simp] theorem writeScr_cfg (b : List Byte) (s : State) : (writeScr b s).cfg = s.cfg := rfl
@[simp] theorem writeScr_cmd (b : List Byte) (s : State) : (writeScr b s).cmd = s.cmd := rfl
@[simp] theorem writeScr_status (b : List Byte) (s : State) : (writeScr b s).status = s.status := rfl
@[simp] theorem writeScr_result (b : List Byte) (s : State) : (writeScr b s).result = s.result := rfl
@[simp] theorem writeScr_terrinfo (b : List Byte) (s : State) : (writeScr b s).terrinfo = s.terrinfo := rfl
@[simp] theorem writeScr_nstate (b : List Byte) (s : State) : (writeScr b s).nstate = s.nstate := rfl
@[simp] theorem writeScr_ncur (b : List Byte) (s : State) : (writeScr b s).ncur = s.ncur := rfl
@[simp] theorem writeScr_nlen (b : List Byte) (s : State) : (writeScr b s).nlen = s.nlen := rfl
@[simp] theorem writeScr_nitem (b : List Byte) (s : State) : (writeScr b s).nitem = s.nitem := rfl
@[simp] theorem writeScr_nrecOff (b : List Byte) (s : State) : (writeScr b s).nrecOff = s.nrecOff := rfl
@[simp] theorem writeScr_nrecLen (b : List Byte) (s : State) : (writeScr b s).nrecLen = s.nrecLen := rfl
@[simp] theorem writeScr_ntypeOff (b : List Byte) (s : State) : (writeScr b s).ntypeOff = s.ntypeOff := rfl
@[simp] theorem writeScr_ntypeLen (b : List Byte) (s : State) : (writeScr b s).ntypeLen = s.ntypeLen := rfl
@[simp] theorem writeScr_nvalOff (b : List Byte) (s : State) : (writeScr b s).nvalOff = s.nvalOff := rfl
@[simp] theorem writeScr_nvalLen (b : List Byte) (s : State) : (writeScr b s).nvalLen = s.nvalLen := rfl
@[simp] theorem writeScr_scr (b : List Byte) (s : State) : (writeScr b s).scr = writeBytes s.scr 0 b := rfl
@[simp] theorem writeScr_stg (b : List Byte) (s : State) : (writeScr b s).stg = s.stg := rfl
@[simp] theorem writeScr_nin (b : List Byte) (s : State) : (writeScr b s).nin = s.nin := rfl
@[simp] theorem writeScr_pending (b : List Byte) (s : State) : (writeScr b s).pending = s.pending := rfl
@[simp] theorem writeScr_ackcap (b : List Byte) (s : State) : (writeScr b s).ackcap = s.ackcap := rfl
@[simp] theorem writeScr_latch (b : List Byte) (s : State) : (writeScr b s).latch = s.latch := rfl
@[simp] theorem writeScr_draws (b : List Byte) (s : State) : (writeScr b s).draws = s.draws := rfl
@[simp] theorem writeScr_hostRead (b : List Byte) (s : State) : (writeScr b s).hostRead = s.hostRead := rfl
@[simp] theorem writeScr_events (b : List Byte) (s : State) : (writeScr b s).events = s.events := rfl

/-! `setAckcap`: ACKCAP. -/

@[simp] theorem setAckcap_cfg (b : List Byte) (s : State) : (setAckcap b s).cfg = s.cfg := rfl
@[simp] theorem setAckcap_cmd (b : List Byte) (s : State) : (setAckcap b s).cmd = s.cmd := rfl
@[simp] theorem setAckcap_status (b : List Byte) (s : State) : (setAckcap b s).status = s.status := rfl
@[simp] theorem setAckcap_result (b : List Byte) (s : State) : (setAckcap b s).result = s.result := rfl
@[simp] theorem setAckcap_terrinfo (b : List Byte) (s : State) : (setAckcap b s).terrinfo = s.terrinfo := rfl
@[simp] theorem setAckcap_nstate (b : List Byte) (s : State) : (setAckcap b s).nstate = s.nstate := rfl
@[simp] theorem setAckcap_ncur (b : List Byte) (s : State) : (setAckcap b s).ncur = s.ncur := rfl
@[simp] theorem setAckcap_nlen (b : List Byte) (s : State) : (setAckcap b s).nlen = s.nlen := rfl
@[simp] theorem setAckcap_nitem (b : List Byte) (s : State) : (setAckcap b s).nitem = s.nitem := rfl
@[simp] theorem setAckcap_nrecOff (b : List Byte) (s : State) : (setAckcap b s).nrecOff = s.nrecOff := rfl
@[simp] theorem setAckcap_nrecLen (b : List Byte) (s : State) : (setAckcap b s).nrecLen = s.nrecLen := rfl
@[simp] theorem setAckcap_ntypeOff (b : List Byte) (s : State) : (setAckcap b s).ntypeOff = s.ntypeOff := rfl
@[simp] theorem setAckcap_ntypeLen (b : List Byte) (s : State) : (setAckcap b s).ntypeLen = s.ntypeLen := rfl
@[simp] theorem setAckcap_nvalOff (b : List Byte) (s : State) : (setAckcap b s).nvalOff = s.nvalOff := rfl
@[simp] theorem setAckcap_nvalLen (b : List Byte) (s : State) : (setAckcap b s).nvalLen = s.nvalLen := rfl
@[simp] theorem setAckcap_scr (b : List Byte) (s : State) : (setAckcap b s).scr = s.scr := rfl
@[simp] theorem setAckcap_stg (b : List Byte) (s : State) : (setAckcap b s).stg = s.stg := rfl
@[simp] theorem setAckcap_nin (b : List Byte) (s : State) : (setAckcap b s).nin = s.nin := rfl
@[simp] theorem setAckcap_pending (b : List Byte) (s : State) : (setAckcap b s).pending = s.pending := rfl
@[simp] theorem setAckcap_ackcap (b : List Byte) (s : State) : (setAckcap b s).ackcap = some b := rfl
@[simp] theorem setAckcap_latch (b : List Byte) (s : State) : (setAckcap b s).latch = s.latch := rfl
@[simp] theorem setAckcap_draws (b : List Byte) (s : State) : (setAckcap b s).draws = s.draws := rfl
@[simp] theorem setAckcap_hostRead (b : List Byte) (s : State) : (setAckcap b s).hostRead = s.hostRead := rfl
@[simp] theorem setAckcap_events (b : List Byte) (s : State) : (setAckcap b s).events = s.events := rfl

/-! `setResult`: RESULT. -/

@[simp] theorem setResult_cfg (c : Byte) (n : Nat) (s : State) : (setResult c n s).cfg = s.cfg := rfl
@[simp] theorem setResult_cmd (c : Byte) (n : Nat) (s : State) : (setResult c n s).cmd = s.cmd := rfl
@[simp] theorem setResult_status (c : Byte) (n : Nat) (s : State) : (setResult c n s).status = s.status := rfl
@[simp] theorem setResult_result (c : Byte) (n : Nat) (s : State) :
    (setResult c n s).result =
      { rcmd := c, rplen := BitVec.ofNat 9 n, rvalid := true } := rfl
@[simp] theorem setResult_terrinfo (c : Byte) (n : Nat) (s : State) : (setResult c n s).terrinfo = s.terrinfo := rfl
@[simp] theorem setResult_nstate (c : Byte) (n : Nat) (s : State) : (setResult c n s).nstate = s.nstate := rfl
@[simp] theorem setResult_ncur (c : Byte) (n : Nat) (s : State) : (setResult c n s).ncur = s.ncur := rfl
@[simp] theorem setResult_nlen (c : Byte) (n : Nat) (s : State) : (setResult c n s).nlen = s.nlen := rfl
@[simp] theorem setResult_nitem (c : Byte) (n : Nat) (s : State) : (setResult c n s).nitem = s.nitem := rfl
@[simp] theorem setResult_nrecOff (c : Byte) (n : Nat) (s : State) : (setResult c n s).nrecOff = s.nrecOff := rfl
@[simp] theorem setResult_nrecLen (c : Byte) (n : Nat) (s : State) : (setResult c n s).nrecLen = s.nrecLen := rfl
@[simp] theorem setResult_ntypeOff (c : Byte) (n : Nat) (s : State) : (setResult c n s).ntypeOff = s.ntypeOff := rfl
@[simp] theorem setResult_ntypeLen (c : Byte) (n : Nat) (s : State) : (setResult c n s).ntypeLen = s.ntypeLen := rfl
@[simp] theorem setResult_nvalOff (c : Byte) (n : Nat) (s : State) : (setResult c n s).nvalOff = s.nvalOff := rfl
@[simp] theorem setResult_nvalLen (c : Byte) (n : Nat) (s : State) : (setResult c n s).nvalLen = s.nvalLen := rfl
@[simp] theorem setResult_scr (c : Byte) (n : Nat) (s : State) : (setResult c n s).scr = s.scr := rfl
@[simp] theorem setResult_stg (c : Byte) (n : Nat) (s : State) : (setResult c n s).stg = s.stg := rfl
@[simp] theorem setResult_nin (c : Byte) (n : Nat) (s : State) : (setResult c n s).nin = s.nin := rfl
@[simp] theorem setResult_pending (c : Byte) (n : Nat) (s : State) : (setResult c n s).pending = s.pending := rfl
@[simp] theorem setResult_ackcap (c : Byte) (n : Nat) (s : State) : (setResult c n s).ackcap = s.ackcap := rfl
@[simp] theorem setResult_latch (c : Byte) (n : Nat) (s : State) : (setResult c n s).latch = s.latch := rfl
@[simp] theorem setResult_draws (c : Byte) (n : Nat) (s : State) : (setResult c n s).draws = s.draws := rfl
@[simp] theorem setResult_hostRead (c : Byte) (n : Nat) (s : State) : (setResult c n s).hostRead = s.hostRead := rfl
@[simp] theorem setResult_events (c : Byte) (n : Nat) (s : State) : (setResult c n s).events = s.events := rfl

/-! `countDraws`: the count of free values. -/

@[simp] theorem countDraws_cfg (n : Nat) (s : State) : (countDraws n s).cfg = s.cfg := rfl
@[simp] theorem countDraws_cmd (n : Nat) (s : State) : (countDraws n s).cmd = s.cmd := rfl
@[simp] theorem countDraws_status (n : Nat) (s : State) : (countDraws n s).status = s.status := rfl
@[simp] theorem countDraws_result (n : Nat) (s : State) : (countDraws n s).result = s.result := rfl
@[simp] theorem countDraws_terrinfo (n : Nat) (s : State) : (countDraws n s).terrinfo = s.terrinfo := rfl
@[simp] theorem countDraws_nstate (n : Nat) (s : State) : (countDraws n s).nstate = s.nstate := rfl
@[simp] theorem countDraws_ncur (n : Nat) (s : State) : (countDraws n s).ncur = s.ncur := rfl
@[simp] theorem countDraws_nlen (n : Nat) (s : State) : (countDraws n s).nlen = s.nlen := rfl
@[simp] theorem countDraws_nitem (n : Nat) (s : State) : (countDraws n s).nitem = s.nitem := rfl
@[simp] theorem countDraws_nrecOff (n : Nat) (s : State) : (countDraws n s).nrecOff = s.nrecOff := rfl
@[simp] theorem countDraws_nrecLen (n : Nat) (s : State) : (countDraws n s).nrecLen = s.nrecLen := rfl
@[simp] theorem countDraws_ntypeOff (n : Nat) (s : State) : (countDraws n s).ntypeOff = s.ntypeOff := rfl
@[simp] theorem countDraws_ntypeLen (n : Nat) (s : State) : (countDraws n s).ntypeLen = s.ntypeLen := rfl
@[simp] theorem countDraws_nvalOff (n : Nat) (s : State) : (countDraws n s).nvalOff = s.nvalOff := rfl
@[simp] theorem countDraws_nvalLen (n : Nat) (s : State) : (countDraws n s).nvalLen = s.nvalLen := rfl
@[simp] theorem countDraws_scr (n : Nat) (s : State) : (countDraws n s).scr = s.scr := rfl
@[simp] theorem countDraws_stg (n : Nat) (s : State) : (countDraws n s).stg = s.stg := rfl
@[simp] theorem countDraws_nin (n : Nat) (s : State) : (countDraws n s).nin = s.nin := rfl
@[simp] theorem countDraws_pending (n : Nat) (s : State) : (countDraws n s).pending = s.pending := rfl
@[simp] theorem countDraws_ackcap (n : Nat) (s : State) : (countDraws n s).ackcap = s.ackcap := rfl
@[simp] theorem countDraws_latch (n : Nat) (s : State) : (countDraws n s).latch = s.latch := rfl
@[simp] theorem countDraws_draws (n : Nat) (s : State) : (countDraws n s).draws = s.draws + n := rfl
@[simp] theorem countDraws_hostRead (n : Nat) (s : State) : (countDraws n s).hostRead = s.hostRead := rfl
@[simp] theorem countDraws_events (n : Nat) (s : State) : (countDraws n s).events = s.events := rfl

/-! `clearRecord`: the six record registers (44_ndef_parser.md R254). -/

@[simp] theorem clearRecord_cfg (s : State) : (clearRecord s).cfg = s.cfg := rfl
@[simp] theorem clearRecord_cmd (s : State) : (clearRecord s).cmd = s.cmd := rfl
@[simp] theorem clearRecord_status (s : State) : (clearRecord s).status = s.status := rfl
@[simp] theorem clearRecord_result (s : State) : (clearRecord s).result = s.result := rfl
@[simp] theorem clearRecord_terrinfo (s : State) : (clearRecord s).terrinfo = s.terrinfo := rfl
@[simp] theorem clearRecord_nstate (s : State) : (clearRecord s).nstate = s.nstate := rfl
@[simp] theorem clearRecord_ncur (s : State) : (clearRecord s).ncur = s.ncur := rfl
@[simp] theorem clearRecord_nlen (s : State) : (clearRecord s).nlen = s.nlen := rfl
@[simp] theorem clearRecord_nitem (s : State) : (clearRecord s).nitem = s.nitem := rfl
@[simp] theorem clearRecord_nrecOff (s : State) : (clearRecord s).nrecOff = 0 := rfl
@[simp] theorem clearRecord_nrecLen (s : State) : (clearRecord s).nrecLen = 0 := rfl
@[simp] theorem clearRecord_ntypeOff (s : State) : (clearRecord s).ntypeOff = 0 := rfl
@[simp] theorem clearRecord_ntypeLen (s : State) : (clearRecord s).ntypeLen = 0 := rfl
@[simp] theorem clearRecord_nvalOff (s : State) : (clearRecord s).nvalOff = 0 := rfl
@[simp] theorem clearRecord_nvalLen (s : State) : (clearRecord s).nvalLen = 0 := rfl
@[simp] theorem clearRecord_scr (s : State) : (clearRecord s).scr = s.scr := rfl
@[simp] theorem clearRecord_stg (s : State) : (clearRecord s).stg = s.stg := rfl
@[simp] theorem clearRecord_nin (s : State) : (clearRecord s).nin = s.nin := rfl
@[simp] theorem clearRecord_pending (s : State) : (clearRecord s).pending = s.pending := rfl
@[simp] theorem clearRecord_ackcap (s : State) : (clearRecord s).ackcap = s.ackcap := rfl
@[simp] theorem clearRecord_latch (s : State) : (clearRecord s).latch = s.latch := rfl
@[simp] theorem clearRecord_draws (s : State) : (clearRecord s).draws = s.draws := rfl
@[simp] theorem clearRecord_hostRead (s : State) : (clearRecord s).hostRead = s.hostRead := rfl
@[simp] theorem clearRecord_events (s : State) : (clearRecord s).events = s.events := rfl

/-! `outError` (R254). -/

@[simp] theorem outError_cfg (e : ErrCode) (s : State) : (outError e s).cfg = s.cfg := rfl
@[simp] theorem outError_cmd (e : ErrCode) (s : State) : (outError e s).cmd = s.cmd := rfl
@[simp] theorem outError_status (e : ErrCode) (s : State) : (outError e s).status = raiseStatus e s.status := rfl
@[simp] theorem outError_result (e : ErrCode) (s : State) : (outError e s).result = s.result := rfl
@[simp] theorem outError_terrinfo (e : ErrCode) (s : State) : (outError e s).terrinfo = s.terrinfo := rfl
@[simp] theorem outError_nstate (e : ErrCode) (s : State) : (outError e s).nstate = .complete := rfl
@[simp] theorem outError_ncur (e : ErrCode) (s : State) : (outError e s).ncur = s.ncur := rfl
@[simp] theorem outError_nlen (e : ErrCode) (s : State) : (outError e s).nlen = s.nlen := rfl
@[simp] theorem outError_nitem (e : ErrCode) (s : State) : (outError e s).nitem = .error := rfl
@[simp] theorem outError_nrecOff (e : ErrCode) (s : State) : (outError e s).nrecOff = 0 := rfl
@[simp] theorem outError_nrecLen (e : ErrCode) (s : State) : (outError e s).nrecLen = 0 := rfl
@[simp] theorem outError_ntypeOff (e : ErrCode) (s : State) : (outError e s).ntypeOff = 0 := rfl
@[simp] theorem outError_ntypeLen (e : ErrCode) (s : State) : (outError e s).ntypeLen = 0 := rfl
@[simp] theorem outError_nvalOff (e : ErrCode) (s : State) : (outError e s).nvalOff = 0 := rfl
@[simp] theorem outError_nvalLen (e : ErrCode) (s : State) : (outError e s).nvalLen = 0 := rfl
@[simp] theorem outError_scr (e : ErrCode) (s : State) : (outError e s).scr = s.scr := rfl
@[simp] theorem outError_stg (e : ErrCode) (s : State) : (outError e s).stg = s.stg := rfl
@[simp] theorem outError_nin (e : ErrCode) (s : State) : (outError e s).nin = s.nin := rfl
@[simp] theorem outError_pending (e : ErrCode) (s : State) : (outError e s).pending = s.pending := rfl
@[simp] theorem outError_ackcap (e : ErrCode) (s : State) : (outError e s).ackcap = s.ackcap := rfl
@[simp] theorem outError_latch (e : ErrCode) (s : State) : (outError e s).latch = none := rfl
@[simp] theorem outError_draws (e : ErrCode) (s : State) : (outError e s).draws = s.draws := rfl
@[simp] theorem outError_hostRead (e : ErrCode) (s : State) : (outError e s).hostRead = s.hostRead := rfl
@[simp] theorem outError_events (e : ErrCode) (s : State) : (outError e s).events = s.events := rfl

/-! `outEnd` (R254). -/

@[simp] theorem outEnd_cfg (s : State) : (outEnd s).cfg = s.cfg := rfl
@[simp] theorem outEnd_cmd (s : State) : (outEnd s).cmd = s.cmd := rfl
@[simp] theorem outEnd_status (s : State) : (outEnd s).status = finishStatus s.status := rfl
@[simp] theorem outEnd_result (s : State) : (outEnd s).result = s.result := rfl
@[simp] theorem outEnd_terrinfo (s : State) : (outEnd s).terrinfo = s.terrinfo := rfl
@[simp] theorem outEnd_nstate (s : State) : (outEnd s).nstate = .complete := rfl
@[simp] theorem outEnd_ncur (s : State) : (outEnd s).ncur = s.ncur := rfl
@[simp] theorem outEnd_nlen (s : State) : (outEnd s).nlen = s.nlen := rfl
@[simp] theorem outEnd_nitem (s : State) : (outEnd s).nitem = .endItem := rfl
@[simp] theorem outEnd_nrecOff (s : State) : (outEnd s).nrecOff = 0 := rfl
@[simp] theorem outEnd_nrecLen (s : State) : (outEnd s).nrecLen = 0 := rfl
@[simp] theorem outEnd_ntypeOff (s : State) : (outEnd s).ntypeOff = 0 := rfl
@[simp] theorem outEnd_ntypeLen (s : State) : (outEnd s).ntypeLen = 0 := rfl
@[simp] theorem outEnd_nvalOff (s : State) : (outEnd s).nvalOff = 0 := rfl
@[simp] theorem outEnd_nvalLen (s : State) : (outEnd s).nvalLen = 0 := rfl
@[simp] theorem outEnd_scr (s : State) : (outEnd s).scr = s.scr := rfl
@[simp] theorem outEnd_stg (s : State) : (outEnd s).stg = s.stg := rfl
@[simp] theorem outEnd_nin (s : State) : (outEnd s).nin = s.nin := rfl
@[simp] theorem outEnd_pending (s : State) : (outEnd s).pending = s.pending := rfl
@[simp] theorem outEnd_ackcap (s : State) : (outEnd s).ackcap = s.ackcap := rfl
@[simp] theorem outEnd_latch (s : State) : (outEnd s).latch = none := rfl
@[simp] theorem outEnd_draws (s : State) : (outEnd s).draws = s.draws := rfl
@[simp] theorem outEnd_hostRead (s : State) : (outEnd s).hostRead = s.hostRead := rfl
@[simp] theorem outEnd_events (s : State) : (outEnd s).events = s.events := rfl

/-! `startReading` (R261). -/

@[simp] theorem startReading_cfg (n : Nat) (s : State) : (startReading n s).cfg = s.cfg := rfl
@[simp] theorem startReading_cmd (n : Nat) (s : State) : (startReading n s).cmd = s.cmd := rfl
@[simp] theorem startReading_status (n : Nat) (s : State) : (startReading n s).status = s.status := rfl
@[simp] theorem startReading_result (n : Nat) (s : State) : (startReading n s).result = s.result := rfl
@[simp] theorem startReading_terrinfo (n : Nat) (s : State) : (startReading n s).terrinfo = s.terrinfo := rfl
@[simp] theorem startReading_nstate (n : Nat) (s : State) : (startReading n s).nstate = .reading := rfl
@[simp] theorem startReading_ncur (n : Nat) (s : State) : (startReading n s).ncur = toReg20 n := rfl
@[simp] theorem startReading_nlen (n : Nat) (s : State) : (startReading n s).nlen = s.nlen := rfl
@[simp] theorem startReading_nitem (n : Nat) (s : State) : (startReading n s).nitem = s.nitem := rfl
@[simp] theorem startReading_nrecOff (n : Nat) (s : State) : (startReading n s).nrecOff = s.nrecOff := rfl
@[simp] theorem startReading_nrecLen (n : Nat) (s : State) : (startReading n s).nrecLen = s.nrecLen := rfl
@[simp] theorem startReading_ntypeOff (n : Nat) (s : State) : (startReading n s).ntypeOff = s.ntypeOff := rfl
@[simp] theorem startReading_ntypeLen (n : Nat) (s : State) : (startReading n s).ntypeLen = s.ntypeLen := rfl
@[simp] theorem startReading_nvalOff (n : Nat) (s : State) : (startReading n s).nvalOff = s.nvalOff := rfl
@[simp] theorem startReading_nvalLen (n : Nat) (s : State) : (startReading n s).nvalLen = s.nvalLen := rfl
@[simp] theorem startReading_scr (n : Nat) (s : State) : (startReading n s).scr = s.scr := rfl
@[simp] theorem startReading_stg (n : Nat) (s : State) : (startReading n s).stg = s.stg := rfl
@[simp] theorem startReading_nin (n : Nat) (s : State) : (startReading n s).nin = s.nin := rfl
@[simp] theorem startReading_pending (n : Nat) (s : State) : (startReading n s).pending = s.pending := rfl
@[simp] theorem startReading_ackcap (n : Nat) (s : State) : (startReading n s).ackcap = s.ackcap := rfl
@[simp] theorem startReading_latch (n : Nat) (s : State) : (startReading n s).latch = s.latch := rfl
@[simp] theorem startReading_draws (n : Nat) (s : State) : (startReading n s).draws = s.draws := rfl
@[simp] theorem startReading_hostRead (n : Nat) (s : State) : (startReading n s).hostRead = s.hostRead := rfl
@[simp] theorem startReading_events (n : Nat) (s : State) : (startReading n s).events = s.events := rfl

/-! `outRecord` (R254, R273, R274). -/

@[simp] theorem outRecord_cfg (k : RecKind) (r : Record) (s : State) : (outRecord k r s).cfg = s.cfg := rfl
@[simp] theorem outRecord_cmd (k : RecKind) (r : Record) (s : State) : (outRecord k r s).cmd = s.cmd := rfl
@[simp] theorem outRecord_status (k : RecKind) (r : Record) (s : State) :
    (outRecord k r s).status =
      finishStatus s.status := rfl
@[simp] theorem outRecord_result (k : RecKind) (r : Record) (s : State) : (outRecord k r s).result = s.result := rfl
@[simp] theorem outRecord_terrinfo (k : RecKind) (r : Record) (s : State) :
    (outRecord k r s).terrinfo =
      s.terrinfo := rfl
@[simp] theorem outRecord_nstate (k : RecKind) (r : Record) (s : State) :
    (outRecord k r s).nstate =
      if flagME r.flags then .complete else s.nstate := rfl
@[simp] theorem outRecord_ncur (k : RecKind) (r : Record) (s : State) :
    (outRecord k r s).ncur =
      toReg20 (r.cur + recTotal r) := rfl
@[simp] theorem outRecord_nlen (k : RecKind) (r : Record) (s : State) : (outRecord k r s).nlen = s.nlen := rfl
@[simp] theorem outRecord_nitem (k : RecKind) (r : Record) (s : State) :
    (outRecord k r s).nitem =
      .record k r.flags := rfl
@[simp] theorem outRecord_nrecOff (k : RecKind) (r : Record) (s : State) :
    (outRecord k r s).nrecOff =
      toReg20 r.cur := rfl
@[simp] theorem outRecord_nrecLen (k : RecKind) (r : Record) (s : State) :
    (outRecord k r s).nrecLen =
      toReg20 (recTotal r) := rfl
@[simp] theorem outRecord_ntypeOff (k : RecKind) (r : Record) (s : State) :
    (outRecord k r s).ntypeOff =
      if decide (k = .mimeMedia) then toReg20 (recTypeOff r) else 0 := rfl
@[simp] theorem outRecord_ntypeLen (k : RecKind) (r : Record) (s : State) :
    (outRecord k r s).ntypeLen =
      if decide (k = .mimeMedia) then toReg20 r.tlen else 0 := rfl
@[simp] theorem outRecord_nvalOff (k : RecKind) (r : Record) (s : State) :
    (outRecord k r s).nvalOff =
      if decide (k = .mimeMedia) then toReg20 (recValOff r) else 0 := rfl
@[simp] theorem outRecord_nvalLen (k : RecKind) (r : Record) (s : State) :
    (outRecord k r s).nvalLen =
      if decide (k = .mimeMedia) then toReg20 r.plen else 0 := rfl
@[simp] theorem outRecord_scr (k : RecKind) (r : Record) (s : State) : (outRecord k r s).scr = s.scr := rfl
@[simp] theorem outRecord_stg (k : RecKind) (r : Record) (s : State) : (outRecord k r s).stg = s.stg := rfl
@[simp] theorem outRecord_nin (k : RecKind) (r : Record) (s : State) : (outRecord k r s).nin = s.nin := rfl
@[simp] theorem outRecord_pending (k : RecKind) (r : Record) (s : State) : (outRecord k r s).pending = s.pending := rfl
@[simp] theorem outRecord_ackcap (k : RecKind) (r : Record) (s : State) : (outRecord k r s).ackcap = s.ackcap := rfl
@[simp] theorem outRecord_latch (k : RecKind) (r : Record) (s : State) : (outRecord k r s).latch = none := rfl
@[simp] theorem outRecord_draws (k : RecKind) (r : Record) (s : State) : (outRecord k r s).draws = s.draws := rfl
@[simp] theorem outRecord_hostRead (k : RecKind) (r : Record) (s : State) :
    (outRecord k r s).hostRead =
      s.hostRead := rfl
@[simp] theorem outRecord_events (k : RecKind) (r : Record) (s : State) : (outRecord k r s).events = s.events := rfl

/-! `resetBlock` (70_reset_and_hazards.md R341). -/

@[simp] theorem resetBlock_cfg (s : State) : (resetBlock s).cfg = s.cfg := rfl
@[simp] theorem resetBlock_cmd (s : State) : (resetBlock s).cmd = 0 := rfl
@[simp] theorem resetBlock_status (s : State) :
    (resetBlock s).status =
      { busy := false, done := false, err := .none, phase := .idle, lastop := 0 } := rfl
@[simp] theorem resetBlock_result (s : State) :
    (resetBlock s).result =
      { rcmd := 0, rplen := 0, rvalid := false } := rfl
@[simp] theorem resetBlock_terrinfo (s : State) : (resetBlock s).terrinfo = 0 := rfl
@[simp] theorem resetBlock_nstate (s : State) : (resetBlock s).nstate = .complete := rfl
@[simp] theorem resetBlock_ncur (s : State) : (resetBlock s).ncur = 0 := rfl
@[simp] theorem resetBlock_nlen (s : State) : (resetBlock s).nlen = 0 := rfl
@[simp] theorem resetBlock_nitem (s : State) : (resetBlock s).nitem = .none := rfl
@[simp] theorem resetBlock_nrecOff (s : State) : (resetBlock s).nrecOff = 0 := rfl
@[simp] theorem resetBlock_nrecLen (s : State) : (resetBlock s).nrecLen = 0 := rfl
@[simp] theorem resetBlock_ntypeOff (s : State) : (resetBlock s).ntypeOff = 0 := rfl
@[simp] theorem resetBlock_ntypeLen (s : State) : (resetBlock s).ntypeLen = 0 := rfl
@[simp] theorem resetBlock_nvalOff (s : State) : (resetBlock s).nvalOff = 0 := rfl
@[simp] theorem resetBlock_nvalLen (s : State) : (resetBlock s).nvalLen = 0 := rfl
@[simp] theorem resetBlock_scr (s : State) : (resetBlock s).scr = [] := rfl
@[simp] theorem resetBlock_stg (s : State) : (resetBlock s).stg = [] := rfl
@[simp] theorem resetBlock_nin (s : State) : (resetBlock s).nin = [] := rfl
@[simp] theorem resetBlock_pending (s : State) : (resetBlock s).pending = none := rfl
@[simp] theorem resetBlock_ackcap (s : State) : (resetBlock s).ackcap = none := rfl
@[simp] theorem resetBlock_latch (s : State) : (resetBlock s).latch = none := rfl
@[simp] theorem resetBlock_draws (s : State) : (resetBlock s).draws = s.draws := rfl
@[simp] theorem resetBlock_hostRead (s : State) : (resetBlock s).hostRead = s.hostRead := rfl
@[simp] theorem resetBlock_events (s : State) : (resetBlock s).events = s.events := rfl

end Sys2Proof.Machine
end

