-- ==== Sys2Proof/Laws/Ops.lean ====
section
/-! SUPPORT. Laws of the shared operations: outcomes, the byte memories (canonical form, read after write), the byte
arithmetic, and one inversion lemma for each phase and for the completion of a call. -/

namespace Sys2Proof.Machine

/-! ## Outcomes -/

@[simp] theorem andThen_of_next {α β : Type} (a : α) (k : α → Result β) : andThen (.next a) k = k a := rfl
@[simp] theorem andThen_of_fault {α β : Type} (f : Fault) (k : α → Result β) : andThen (.fault f) k = .fault f := rfl
@[simp] theorem andThen_of_refused {α β : Type} (r : Refusal) (k : α → Result β) :
    andThen (.refused r) k = .refused r := rfl

theorem andThen_next {α β : Type} {o : Result α} {k : α → Result β} {b : β} :
    andThen o k = .next b ↔ ∃ a, o = .next a ∧ k a = .next b := by
  cases o <;> simp [andThen]

@[simp] theorem written_some {α : Type} (f : Fault) (a : α) : written f (some a) = .next a := rfl
@[simp] theorem written_none {α : Type} (f : Fault) : written f (none : Option α) = .fault f := rfl

theorem written_next {α : Type} {f : Fault} {o : Option α} {a : α} : written f o = .next a ↔ o = some a := by
  cases o <;> simp [written]

theorem whenIdle_of_idle {s : State} {k : Result State} (h : s.status.busy = false) : whenIdle s k = k := by
  simp [whenIdle, h]

theorem whenIdle_of_busy {s : State} {k : Result State} (h : s.status.busy = true) :
    whenIdle s k = .refused .busyWrite := by
  simp [whenIdle, h]

theorem whenIdle_next {s t : State} {k : Result State} :
    whenIdle s k = .next t ↔ s.status.busy = false ∧ k = .next t := by
  cases h : s.status.busy <;> simp [whenIdle, h]

/-! ## The byte memories -/

theorem readByte_writeByte_same (m : Memory) (a : Nat) (b : Byte) : readByte (writeByte m a b) a = some b := by
  induction m with
  | nil => simp [writeByte, readByte]
  | cons c rest ih =>
    obtain ⟨k, v⟩ := c
    by_cases h1 : a < k
    · simp [writeByte, readByte, h1]
    · by_cases h2 : a = k
      · simp [writeByte, readByte, h2]
      · simp [writeByte, readByte, h1, h2, Ne.symm h2, ih]

theorem readByte_writeByte_other (m : Memory) {a a' : Nat} (b : Byte) (h : a' ≠ a) :
    readByte (writeByte m a b) a' = readByte m a' := by
  induction m with
  | nil => simp [writeByte, readByte, h.symm]
  | cons c rest ih =>
    obtain ⟨k, v⟩ := c
    by_cases h1 : a < k
    · simp [writeByte, readByte, h1, h.symm]
    · by_cases h2 : a = k
      · subst h2; simp [writeByte, readByte, h.symm]
      · simp [writeByte, readByte, h1, h2, ih]

/-- A write of bytes gives each of them at its place and leaves every other offset alone. -/
theorem readByte_writeBytes (bs : List Byte) :
    ∀ (m : Memory) (a k : Nat), readByte (writeBytes m a bs) k =
      if a ≤ k ∧ k < a + bs.length then bs[k - a]? else readByte m k := by
  induction bs with
  | nil => intro m a k; simp [writeBytes]
  | cons b rest ih =>
    intro m a k
    rw [writeBytes, ih]
    rcases lt_trichotomy k a with h | h | h
    · rw [if_neg (by omega), if_neg (by omega), readByte_writeByte_other _ _ (by omega)]
    · subst h
      rw [if_neg (by omega), readByte_writeByte_same, if_pos (by simp)]
      simp
    · by_cases h2 : k < a + 1 + rest.length
      · rw [if_pos (by omega), if_pos (by simp; omega)]
        obtain ⟨d, rfl⟩ : ∃ d, k = a + 1 + d := ⟨k - (a + 1), by omega⟩
        rw [show a + 1 + d - (a + 1) = d by omega, show a + 1 + d - a = d + 1 by omega]
        rfl
      · rw [if_neg (by omega), if_neg (by simp; omega), readByte_writeByte_other _ _ (by omega)]

theorem readByte_writeBytes_outside (m : Memory) (a k : Nat) (bs : List Byte) (h : k < a ∨ a + bs.length ≤ k) :
    readByte (writeBytes m a bs) k = readByte m k := by
  rw [readByte_writeBytes, if_neg (by omega)]

/-- The bytes read are exactly the written bytes of the range. -/
theorem readBytes_eq_some (n : Nat) : ∀ (m : Memory) (a : Nat) (l : List Byte),
    readBytes m a n = some l ↔ l.length = n ∧ ∀ k < n, readByte m (a + k) = l[k]? := by
  induction n with
  | zero => intro m a l; cases l <;> simp [readBytes]
  | succ n ih =>
    intro m a l
    rw [readBytes]
    constructor
    · intro h
      cases hb : readByte m a with
      | none => simp [hb] at h
      | some b =>
        cases hr : readBytes m (a + 1) n with
        | none => simp [hb, hr] at h
        | some rest =>
          obtain ⟨hl, hk⟩ := (ih m (a + 1) rest).1 hr
          simp only [hb, hr, Option.some.injEq] at h
          subst h
          refine ⟨by simp [hl], fun k hk' => ?_⟩
          cases k with
          | zero => simpa using hb
          | succ k => simpa [Nat.add_assoc, Nat.add_comm 1 k] using hk k (by omega)
    · rintro ⟨hl, hk⟩
      cases l with
      | nil => simp at hl
      | cons b rest =>
        have hb : readByte m a = some b := by simpa using hk 0 (by omega)
        have hr : readBytes m (a + 1) n = some rest :=
          (ih m (a + 1) rest).2 ⟨by simpa using hl, fun k hk' => by
            simpa [Nat.add_assoc, Nat.add_comm 1 k] using hk (k + 1) (by omega)⟩
        simp [hb, hr]

/-- A block read over an unwritten byte gives nothing (10_state.md R50). -/
theorem readBytes_none {m : Memory} {a n k : Nat} (hk : a ≤ k) (hkn : k < a + n) (h : readByte m k = none) :
    readBytes m a n = none := by
  induction n generalizing a with
  | zero => omega
  | succ n ih =>
    unfold readBytes
    by_cases e : a = k
    · rw [e, h]
    · cases readByte m a with
      | none => rfl
      | some b => simp only [ih (a := a + 1) (by omega) (by omega)]

theorem readBytes_length {m : Memory} {a n : Nat} {l : List Byte} (h : readBytes m a n = some l) : l.length = n :=
  ((readBytes_eq_some n m a l).1 h).1

theorem readBytes_writeBytes_same (m : Memory) (a : Nat) (bs : List Byte) :
    readBytes (writeBytes m a bs) a bs.length = some bs := by
  rw [readBytes_eq_some]
  refine ⟨rfl, fun k hk => ?_⟩
  rw [readByte_writeBytes, if_pos (by omega), Nat.add_sub_cancel_left]

/-- A range can be read exactly when each of its bytes is written. -/
theorem readBytes_isSome (n : Nat) : ∀ (m : Memory) (a : Nat),
    (readBytes m a n).isSome = true ↔ ∀ k < n, (readByte m (a + k)).isSome = true := by
  induction n with
  | zero => intro m a; simp [readBytes]
  | succ n ih =>
    intro m a
    rw [Nat.forall_lt_succ_left, readBytes]
    cases hb : readByte m a with
    | none => simp
    | some b =>
      have := ih m (a + 1)
      cases hr : readBytes m (a + 1) n <;>
        simp [hr, Nat.add_assoc, Nat.add_comm 1] at this ⊢ <;> exact this

/-! ### Canonical form -/

/-- `rising` by its head: every later offset lies above it. -/
theorem rising_cons {k : Nat} {v : Byte} {m : Memory} :
    Memory.rising ((k, v) :: m) = true ↔ (∀ c ∈ m, k < c.1) ∧ Memory.rising m = true := by
  induction m generalizing k v with
  | nil => simp [Memory.rising]
  | cons c rest ih =>
    obtain ⟨k', v'⟩ := c
    simp only [Memory.rising, Bool.and_eq_true, decide_eq_true_eq, List.mem_cons, forall_eq_or_imp]
    constructor
    · rintro ⟨h, hr⟩
      exact ⟨⟨h, fun c hc => lt_trans h ((ih.1 hr).1 c hc)⟩, hr⟩
    · rintro ⟨⟨h, -⟩, hr⟩
      exact ⟨h, hr⟩

theorem writeByte_bound {m : Memory} {a : Nat} {b : Byte} {p : Nat → Prop} (hm : ∀ c ∈ m, p c.1) (ha : p a) :
    ∀ c ∈ writeByte m a b, p c.1 := by
  induction m with
  | nil => simpa [writeByte] using ha
  | cons c rest ih =>
    obtain ⟨k, v⟩ := c
    simp only [List.mem_cons, forall_eq_or_imp] at hm
    rw [writeByte]
    split
    · simpa using ⟨ha, hm.1, by simpa using hm.2⟩
    · split
      · simpa using ⟨ha, by simpa using hm.2⟩
      · simpa using ⟨hm.1, by simpa using ih hm.2⟩

theorem writeByte_wf {m : Memory} (h : m.wf) (a : Nat) (b : Byte) : (writeByte m a b).wf := by
  induction m with
  | nil => rfl
  | cons c rest ih =>
    obtain ⟨k, v⟩ := c
    obtain ⟨hk, hr⟩ := rising_cons.1 h
    show Memory.rising (writeByte _ a b) = true
    rw [writeByte]
    split
    · rename_i hlt
      refine rising_cons.2 ⟨?_, h⟩
      simp only [List.mem_cons, forall_eq_or_imp]
      exact ⟨hlt, fun c hc => lt_trans hlt (hk c hc)⟩
    · split
      · rename_i heq
        subst heq
        exact rising_cons.2 ⟨hk, hr⟩
      · exact rising_cons.2 ⟨writeByte_bound (p := fun x => k < x) hk (by omega), ih hr⟩

theorem writeByte_within {m : Memory} {cap a : Nat} (h : m.within cap) (ha : a < cap) (b : Byte) :
    (writeByte m a b).within cap :=
  writeByte_bound (p := fun x => x < cap) h ha

theorem writeBytes_wf (bs : List Byte) : ∀ {m : Memory}, m.wf → ∀ a : Nat, (writeBytes m a bs).wf := by
  induction bs with
  | nil => intro m h a; exact h
  | cons b rest ih => intro m h a; exact ih (writeByte_wf h a b) (a + 1)

theorem writeBytes_within (bs : List Byte) : ∀ {m : Memory} {cap : Nat}, m.within cap →
    ∀ a : Nat, a + bs.length ≤ cap → (writeBytes m a bs).within cap := by
  induction bs with
  | nil => intro m cap h a _; exact h
  | cons b rest ih =>
    intro m cap h a ha
    simp only [List.length_cons] at ha
    exact ih (writeByte_within h (by omega) b) (a + 1) (by omega)

/-! ## Arithmetic (00_scope.md R13) -/

theorem neg8_eq_neg (x : Byte) : neg8 x = -x := by
  rw [neg8, BitVec.neg_eq_not_add]; rfl

theorem sum8_append (s t : List Byte) : sum8 (s ++ t) = sum8 s + sum8 t := by
  induction s with
  | nil => simp [sum8]
  | cons b rest ih => simp only [sum8, List.cons_append, List.foldr_cons] at ih ⊢; rw [ih, BitVec.add_assoc]

@[simp] theorem sum8_nil : sum8 [] = 0 := rfl
@[simp] theorem sum8_cons (b : Byte) (s : List Byte) : sum8 (b :: s) = b + sum8 s := rfl

theorem drawnBytes_length (d n : Nat) : (drawnBytes d n).length = n := by simp [drawnBytes]

theorem toReg20_toNat {n : Nat} (h : n < 1048576) : (toReg20 n).toNat = n := by
  simp [toReg20, BitVec.toNat_ofNat]; omega

/-! ## Phases -/

theorem buildFrame_length (cb : Byte) (p : List Byte) : (buildFrame cb p).length = 9 + p.length := by
  simp [buildFrame]; omega

/-- Everything PhaseSend can do (41_frame_codec.md R143). -/
theorem phaseSend_next {cb : Byte} {plen : Nat} {s t : State} :
    phaseSend cb plen s = .next t ↔
      (s.cfg.bufCap - 10 < plen ∧ t = raiseErr .tooMuchData (setPhase .send s)) ∨
        (plen ≤ s.cfg.bufCap - 10 ∧ ∃ p, readBytes s.stg 0 plen = some p ∧
          t = issue (.send (buildFrame cb p)) (writeScr (buildFrame cb p) (latchPayload p (setPhase .send s)))) := by
  unfold phaseSend
  by_cases h : s.cfg.bufCap - 10 < plen
  · rw [if_pos h]
    simp [h, Nat.not_le.2 h, eq_comm]
  · rw [if_neg h]
    simp [andThen_next, written_next, h, Nat.not_lt.1 h, @eq_comm _ t]

/-- What a valid inbound frame is (R160, R163): all of V1 to V7 hold, and the results are byte 6 and LEN - 2. -/
theorem validateFrame_ok {b : List Byte} {c : Byte} {n : Nat} :
    validateFrame b = .ok (c, n) ↔
      (at8 b 0 = 0x00 ∧ at8 b 1 = 0x00 ∧ at8 b 2 = 0xFF) ∧ at8 b 3 + at8 b 4 = 0 ∧
        2 ≤ (at8 b 3).toNat ∧ 6 + (at8 b 3).toNat < b.length ∧ at8 b (6 + (at8 b 3).toNat) = 0x00 ∧
        at8 b 5 = tfiIn ∧ sum8 (slice b 5 (6 + (at8 b 3).toNat)) = 0 ∧
        c = at8 b 6 ∧ n = (at8 b 3).toNat - 2 := by
  unfold validateFrame
  simp only [show ∀ x : Nat, 5 + x + 1 = 6 + x by omega]
  constructor
  · intro h
    split at h <;> try contradiction
    split at h <;> try contradiction
    split at h <;> try contradiction
    split at h <;> try contradiction
    split at h <;> try contradiction
    split at h <;> try contradiction
    split at h <;> try contradiction
    split at h <;> try contradiction
    rename_i h1 h2 h3 h4 h5 h6 h7 h8
    simp only [not_or, not_not] at h1 h2 h6 h7 h8
    simp only [Except.ok.injEq, Prod.mk.injEq] at h
    exact ⟨h1, h2, by omega, by omega, h6, h7, h8, h.1.symm, h.2.symm⟩
  · rintro ⟨⟨h0, h1, h2⟩, h3, h4, h5, h6, h7, h8, rfl, rfl⟩
    rw [if_neg (by simp [h0, h1, h2]), if_neg (by simpa using h3), if_neg (by omega), if_neg (by omega),
      if_neg (by omega), if_neg (by simpa using h6), if_neg (by simpa using h7), if_neg (by simpa using h8)]

/-- Everything the completion of a call can do (42_handshake.md R190): nothing is delivered when no call of a command is
pending; otherwise the call is taken and one of the five outcomes of R95 to R98 follows. -/
theorem complete_next {c : Completion} {s t : State} (h : complete c s = .next t) :
    ((s.pending = none ∨ s.latch = none) ∧ t = s) ∨
    ∃ call l, s.pending = some call ∧ s.latch = some l ∧
      ((∃ bytes, call = .send bytes ∧ c = .ok ∧ t = advance l.instr (takeCall s)) ∨
        (call = .wait ∧ c = .ok ∧ t = advance l.instr (takeCall s)) ∨
        (∃ b, call = .recv b.length ∧ c = .okBytes b ∧ t = bytesReceived b l.instr (takeCall s)) ∨
        (∃ info, (call = .wait ∨ ∃ bytes, call = .send bytes) ∧ c = .fail info ∧
          t = failTransport info (takeCall s)) ∨
        (∃ n info, call = .recv n ∧ c = .fail info ∧ t = receiveFailed n info (takeCall s))) := by
  unfold complete at h
  cases hp : s.pending with
  | none =>
    left
    cases hl : s.latch <;> simp [hp, hl] at h <;> simp [h]
  | some call =>
    cases hl : s.latch with
    | none => left; simp [hp, hl] at h; simp [h]
    | some l =>
      right
      simp only [hp, hl] at h
      refine ⟨call, l, rfl, rfl, ?_⟩
      cases call <;> cases c <;> simp only [completeCall, Host.Outcome.next.injEq, reduceCtorEq] at h
      · exact .inl ⟨_, rfl, rfl, h.symm⟩
      · exact .inr (.inr (.inr (.inl ⟨_, .inr ⟨_, rfl⟩, rfl, h.symm⟩)))
      · exact .inr (.inl ⟨rfl, rfl, h.symm⟩)
      · exact .inr (.inr (.inr (.inl ⟨_, .inl rfl, rfl, h.symm⟩)))
      · split at h
        · rename_i hb
          simp only [Host.Outcome.next.injEq] at h
          exact .inr (.inr (.inl ⟨_, by rw [hb], rfl, h.symm⟩))
        · contradiction
      · exact .inr (.inr (.inr (.inr ⟨_, _, rfl, rfl, h.symm⟩)))

end Sys2Proof.Machine
end

