-- ==== Sys2Proof/Laws/Ndef.lean ====
section
/-! SUPPORT. Laws of the NDEF parser: what a record's header and body, a record step, a fresh step and one NNEXT can
answer (spec 44_ndef_parser.md). -/

namespace Sys2Proof.Machine

theorem headerLen_ge (f : Byte) : 3 ≤ headerLen f := by
  unfold headerLen; split <;> omega

theorem headerLen_le (f : Byte) : headerLen f ≤ 7 := by
  unfold headerLen; split <;> split <;> omega

/-- A header read names its own cursor and flags, and its length is R265's. -/
theorem readHeader_next {f : Byte} {cur : Nat} {s : State} {r : Record} (h : readHeader f cur s = .next r) :
    r.cur = cur ∧ r.flags = f ∧ r.hlen = headerLen f := by
  unfold readHeader at h
  obtain ⟨tlen, -, h⟩ := andThen_next.1 h
  obtain ⟨plen, -, h⟩ := andThen_next.1 h
  obtain ⟨idlen, -, h⟩ := andThen_next.1 h
  simp only [Host.Outcome.next.injEq] at h
  subst h
  exact ⟨rfl, rfl, rfl⟩

/-- The kinds the parser yields (R269 to R272, R275). -/
abbrev yieldedKinds : List RecKind := [.empty, .mimeMedia, .unknown, .unexpected]

/-- A record body yields a record of one of four kinds, or the error UTF8. -/
theorem recordBody_next {r : Record} {s t : State} (h : recordBody r s = .next t) :
    (∃ kind ∈ yieldedKinds, t = outRecord kind r s) ∨ (tnf r.flags = 2 ∧ t = outError .utf8 s) := by
  unfold recordBody at h
  split at h
  · simp only [Host.Outcome.next.injEq] at h
    exact .inl ⟨_, by decide, h.symm⟩
  · rename_i h2
    unfold mimeBody at h
    obtain ⟨ty, -, h⟩ := andThen_next.1 h
    obtain ⟨val, -, h⟩ := andThen_next.1 h
    split at h
    · simp only [Host.Outcome.next.injEq] at h
      exact .inl ⟨_, by decide, h.symm⟩
    · simp only [Host.Outcome.next.injEq] at h
      exact .inr ⟨h2, h.symm⟩
  · simp only [Host.Outcome.next.injEq] at h
    exact .inl ⟨_, by decide, h.symm⟩
  · simp only [Host.Outcome.next.injEq] at h
    exact .inl ⟨_, by decide, h.symm⟩

/-- What a record step can answer (R259, R265 to R274): END at the end of the input, an error that leaves the cursor
where it was, or the record at the cursor, which lies inside the input. -/
theorem recordStep_next {s t : State} (h : recordStep s = .next t) :
    (remaining s s.ncur.toNat = 0 ∧ t = outEnd s) ∨
    (∃ e ∈ [ErrCode.underflowHeader, .underflowPayload, .utf8], t = outError e s) ∨
    (∃ kind ∈ yieldedKinds, ∃ r : Record, r.cur = s.ncur.toNat ∧ readByte s.nin r.cur = some r.flags ∧
      r.hlen = headerLen r.flags ∧ recTotal r ≤ remaining s s.ncur.toNat ∧ t = outRecord kind r s) := by
  unfold recordStep at h
  simp only at h
  split at h
  · rename_i h0
    simp only [Host.Outcome.next.injEq] at h
    exact .inl ⟨h0, h.symm⟩
  · obtain ⟨f, hf, h⟩ := andThen_next.1 h
    have hf := written_next.1 hf
    split at h
    · simp only [Host.Outcome.next.injEq] at h
      exact .inr (.inl ⟨_, by simp, h.symm⟩)
    · obtain ⟨r, hr, h⟩ := andThen_next.1 h
      obtain ⟨hcur, hflags, hhlen⟩ := readHeader_next hr
      split at h
      · simp only [Host.Outcome.next.injEq] at h
        exact .inr (.inl ⟨_, by simp, h.symm⟩)
      · rename_i htot
        rcases recordBody_next h with ⟨kind, hk, rfl⟩ | ⟨-, rfl⟩
        · exact .inr (.inr ⟨kind, hk, r, hcur, by rw [hcur, hflags]; exact hf, by rw [hflags]; exact hhlen,
            by omega, rfl⟩)
        · exact .inr (.inl ⟨_, by simp, rfl⟩)

/-- What a fresh step can answer (R260 to R262). -/
theorem freshStep_next {s t : State} (h : freshStep s = .next t) :
    t = outError .notFormatted s ∨ (∃ off ∈ [2, 7], recordStep (startReading off s) = .next t) ∨
      (s.cfg.noTlvAction = .endItem ∧ t = outEnd s) := by
  unfold freshStep at h
  obtain ⟨blank, -, h⟩ := andThen_next.1 h
  split at h
  · simp only [Host.Outcome.next.injEq] at h
    exact .inl h.symm
  · unfold findContent at h
    obtain ⟨b0, -, h⟩ := andThen_next.1 h
    split at h
    · exact .inr (.inl ⟨2, by simp, h⟩)
    · obtain ⟨b5, -, h⟩ := andThen_next.1 h
      split at h
      · exact .inr (.inl ⟨7, by simp, h⟩)
      · unfold noTlv at h
        split at h
        · rename_i hcfg
          simp only [Host.Outcome.next.injEq] at h
          exact .inr (.inr ⟨hcfg, h.symm⟩)
        · contradiction

/-! ## What a fresh step answers, by the bytes it reads (R252, R260 to R263) -/

theorem inputByte_next {s : State} {i : Nat} {b : Option Byte} : inputByte s i = .next b ↔ s.byteIs i b := by
  unfold inputByte State.byteIs
  split
  · cases h : readByte s.nin i with
    | none => cases b <;> simp
    | some v => cases b <;> simp
  · simp [eq_comm]

theorem inputByte_unwritten {s : State} {i : Nat} (hi : i < s.nlen.toNat) (h : readByte s.nin i = none) :
    inputByte s i = .fault .unwrittenInput := by
  simp [inputByte, hi, h]

/-- Bytes that can all be read, not all of them 0xFF: not blank. -/
theorem blankFrom_false {s : State} (n : Nat) : ∀ i : Nat, (∀ k < n, ∃ b, s.byteIs (i + k) b) →
    (∃ k < n, ¬ s.byteIs (i + k) (some 0xFF)) → blankFrom i n s = .next false := by
  induction n with
  | zero => intro i _ ⟨k, hk, _⟩; omega
  | succ n ih =>
    intro i hall ⟨k, hk, hne⟩
    obtain ⟨b, hb⟩ : ∃ b, s.byteIs i b := hall 0 (by omega)
    rw [blankFrom, inputByte_next.2 hb, andThen_of_next]
    split
    · rename_i hff
      subst hff
      have step : ∀ j, i + 1 + j = i + (j + 1) := fun j => by omega
      refine ih (i + 1) (fun j hj => step j ▸ hall (j + 1) (by omega)) ?_
      cases k with
      | zero => exact absurd hb hne
      | succ k => exact ⟨k, by omega, step k ▸ hne⟩
    · rfl

/-- All 0xFF: blank. -/
theorem blankFrom_true {s : State} (n : Nat) : ∀ i : Nat, (∀ k < n, s.byteIs (i + k) (some 0xFF)) →
    blankFrom i n s = .next true := by
  induction n with
  | zero => intro _ _; rfl
  | succ n ih =>
    intro i hall
    have h0 : s.byteIs i (some 0xFF) := hall 0 (by omega)
    rw [blankFrom, inputByte_next.2 h0, andThen_of_next, if_pos rfl]
    exact ih (i + 1) fun j hj => by
      have := hall (j + 1) (by omega)
      rwa [show i + (j + 1) = i + 1 + j by omega] at this

theorem notBlank_byte0 {s : State} (h : s.notBlank) : ∃ b, s.byteIs 0 b := by
  by_cases h0 : 0 < s.nlen.toNat
  · exact ⟨readByte s.nin 0, by simp [State.byteIs, h0, h.1 0 (by omega) h0]⟩
  · exact ⟨none, by simp [State.byteIs, h0]⟩

theorem blankFrom_of_notBlank {s : State} (h : s.notBlank) : blankFrom 0 4 s = .next false := by
  refine blankFrom_false 4 0 (fun k hk => ?_) (by simpa using h.2)
  rw [Nat.zero_add]
  by_cases hn : k < s.nlen.toNat
  · exact ⟨readByte s.nin k, by simp [State.byteIs, hn, h.1 k hk hn]⟩
  · exact ⟨none, by simp [State.byteIs, hn]⟩

/-- R261, R263: 0x03 at byte 0 decides, and no other byte is read. -/
theorem freshStep_of_byte0 {s : State} (h : s.byteIs 0 (some 0x03)) :
    freshStep s = recordStep (startReading 2 s) := by
  simp [freshStep, blankFrom, findContent, inputByte_next.2 h]

/-- On a tag that is not blank, byte 0 not 0x03, byte 5 decides (R261, R262). -/
theorem freshStep_of_notBlank {s : State} (hnb : s.notBlank) (h0 : ¬ s.byteIs 0 (some 0x03)) :
    freshStep s = andThen (inputByte s 5) fun b5 =>
      if b5 = some 0x03 then recordStep (startReading 7 s) else noTlv s := by
  obtain ⟨b, hb⟩ := notBlank_byte0 hnb
  have hne : b ≠ some 0x03 := fun e => h0 (e ▸ hb)
  rw [freshStep, blankFrom_of_notBlank hnb, andThen_of_next, if_neg Bool.false_ne_true, findContent,
    inputByte_next.2 hb, andThen_of_next, if_neg hne]

/-! ## NNEXT by NSTATE (R258) -/

theorem nnext_of_fresh {s : State} (hb : s.status.busy = false) (hf : s.nstate = .fresh) :
    exec .nnext s = freshStep (accept .nnext s) := by
  simp only [exec, execNnext, whenIdle_of_idle hb]
  unfold nextItem
  rw [show (accept .nnext s).nstate = .fresh from hf]

theorem nnext_of_reading {s : State} (hb : s.status.busy = false) (hr : s.nstate = .reading) :
    exec .nnext s = recordStep (accept .nnext s) := by
  simp only [exec, execNnext, whenIdle_of_idle hb]
  unfold nextItem
  rw [show (accept .nnext s).nstate = .reading from hr]

end Sys2Proof.Machine
end

