-- ==== Sys2Proof/Laws/PerInstr.lean ====
section
/-! SUPPORT. Statements about every instruction, one lemma per constructor. -/

namespace Sys2Proof.Laws.EncodeOpcode

/-- The opcode of the row (30_encoding.md R115). -/
def rowOpcode : Instr → Nat
  | .pack _ _ => 1
  | .waitrdy => 2
  | .rdack => 3
  | .rdresp _ => 4
  | .request _ _ _ => 5
  | .send _ _ => 6
  | .nbegin _ => 8
  | .nnext => 9

/-- The word of an instruction, well formed or not, carries its row's opcode in bits 3:0. -/
def Statement (i : Instr) : Prop := opcOf (encode i) = rowOpcode i

theorem formatF_opcode (opc : Nat) (cb : Byte) (l1 l2 : Nat) (h : opc < 16) :
    opcOf (formatF opc cb l1 l2) = opc := by
  simp only [opcOf, field, formatF, BitVec.toNat_ofNat]
  have := cb.isLt
  omega

theorem formatN_opcode (opc nlen : Nat) (h : opc < 16) : opcOf (formatN opc nlen) = opc := by
  simp only [opcOf, field, formatN, BitVec.toNat_ofNat]
  omega

theorem pack (cb : Byte) (plen : Nat) : Statement (.pack cb plen) := formatF_opcode 1 cb plen 0 (by decide)
theorem waitrdy : Statement .waitrdy := by unfold Statement; decide
theorem rdack : Statement .rdack := by unfold Statement; decide
theorem rdresp (rlen : Nat) : Statement (.rdresp rlen) := formatF_opcode 4 0 rlen 0 (by decide)
theorem request (cb : Byte) (plen rlen : Nat) : Statement (.request cb plen rlen) :=
  formatF_opcode 5 cb plen rlen (by decide)
theorem send (cb : Byte) (plen : Nat) : Statement (.send cb plen) := formatF_opcode 6 cb plen 0 (by decide)
theorem nbegin (nlen : Nat) : Statement (.nbegin nlen) := formatN_opcode 8 nlen (by decide)
theorem nnext : Statement .nnext := by unfold Statement; decide

end Sys2Proof.Laws.EncodeOpcode
end

