-- ==== Sys2Proof/Machine/Asm.lean ====
section
/-! DEFINITION. The assembler syntax and the disassembler (spec 30_encoding.md R119). The letters of hex digits and the
blanks an assembler accepts are the model's choice (log 22). -/

namespace Sys2Proof.Machine

/-! ## Numbers -/

/-- The sixteen digits, each at the place of its value. -/
def hexDigits : List Char := "0123456789ABCDEF".toList

/-- The hex digit of `n < 16`. -/
def hexDigit (n : Nat) : Char := hexDigits.getD n '0'

/-- The low `digits` hex digits of `n`, most significant first. -/
def hexChars : Nat → Nat → List Char
  | 0, _ => []
  | digits + 1, n => hexChars digits (n / 16) ++ [hexDigit (n % 16)]

/-- `n` in decimal, `fuel` bounding its digits. -/
def decChars : Nat → Nat → List Char
  | 0, _ => []
  | fuel + 1, n => if n < 10 then [hexDigit n] else decChars fuel (n / 10) ++ [hexDigit (n % 10)]

/-- A length in decimal; ten digits hold every 32-bit value. -/
def lengthText (n : Nat) : String := String.ofList (decChars 10 n)

/-- A command byte, `0x` and two hex digits. -/
def byteText (b : Byte) : String := "0x" ++ String.ofList (hexChars 2 b.toNat)

/-! ## Disassembler -/

/-- An instruction in the syntax of R119: CB in hex, lengths in decimal. -/
def instrText : Instr → String
  | .pack cb plen => "PACK " ++ byteText cb ++ ", " ++ lengthText plen
  | .waitrdy => "WAITRDY"
  | .rdack => "RDACK"
  | .rdresp rlen => "RDRESP " ++ lengthText rlen
  | .request cb plen rlen => "REQUEST " ++ byteText cb ++ ", " ++ lengthText plen ++ ", " ++ lengthText rlen
  | .send cb plen => "SEND " ++ byteText cb ++ ", " ++ lengthText plen
  | .nbegin nlen => "NBEGIN " ++ lengthText nlen
  | .nnext => "NNEXT"

/-- A legal word as its instruction, an illegal one as `.word 0xhhhhhhhh` (R119). -/
def disassemble (w : Word) : String :=
  match decode w with
  | .ok i => instrText i
  | .error _ => ".word 0x" ++ String.ofList (hexChars 8 w.toNat)

/-! ## Assembler -/

/-- The value of a hex digit of either case. -/
def hexValue (c : Char) : Option Nat := hexDigits.idxOf? c.toUpper

/-- The number the digits spell in `base`, `acc` standing before them. -/
def digitsValue (base acc : Nat) : List Char → Option Nat
  | [] => some acc
  | c :: rest =>
    match hexValue c with
    | none => none
    | some d => if d < base then digitsValue base (acc * base + d) rest else none

/-- A number in decimal or with `0x` (R119). -/
def parseNumber : List Char → Option Nat
  | [] => none
  | ['0', 'x'] => none
  | '0' :: 'x' :: rest => digitsValue 16 0 rest
  | text => digitsValue 10 0 text

/-- Blanks taken off both ends. -/
def trim (text : List Char) : List Char :=
  ((text.dropWhile (· = ' ')).reverse.dropWhile (· = ' ')).reverse

/-- The parts of a text between commas. -/
def splitCommas : List Char → List (List Char)
  | [] => [[]]
  | ',' :: rest => [] :: splitCommas rest
  | c :: rest =>
    match splitCommas rest with
    | [] => [[c]]
    | part :: parts => (c :: part) :: parts

/-- Every part a number, or none. -/
def parseNumbers : List (List Char) → Option (List Nat)
  | [] => some []
  | part :: parts =>
    match parseNumber (trim part), parseNumbers parts with
    | some n, some ns => some (n :: ns)
    | _, _ => none

/-- The instruction of a mnemonic and its operands; CB must be a byte. -/
def instrOf (mnemonic : String) (operands : List Nat) : Option Instr :=
  match operands with
  | [] =>
    if mnemonic = "WAITRDY" then some .waitrdy
    else if mnemonic = "RDACK" then some .rdack
    else if mnemonic = "NNEXT" then some .nnext
    else none
  | [n] =>
    if mnemonic = "RDRESP" then some (.rdresp n)
    else if mnemonic = "NBEGIN" then some (.nbegin n)
    else none
  | [cb, plen] =>
    if 256 ≤ cb then none
    else if mnemonic = "PACK" then some (.pack (BitVec.ofNat 8 cb) plen)
    else if mnemonic = "SEND" then some (.send (BitVec.ofNat 8 cb) plen)
    else none
  | [cb, plen, rlen] =>
    if 256 ≤ cb then none
    else if mnemonic = "REQUEST" then some (.request (BitVec.ofNat 8 cb) plen rlen)
    else none
  | _ => none

/-- The commands of a pseudo-instruction (R120, R121). -/
def pseudoOf (mnemonic : String) (operands : List Nat) : Option (List Instr) :=
  match operands with
  | [cb, plen] => if mnemonic = "NOTIFY" ∧ cb < 256 then some (notify (BitVec.ofNat 8 cb) plen) else none
  | [cb, plen, rlen] =>
    if mnemonic = "HANDSHAKE" ∧ cb < 256 then some (handshake (BitVec.ofNat 8 cb) plen rlen) else none
  | _ => none

/-- A line without its comment and outer blanks. -/
def lineText (line : String) : List Char := trim (line.toList.takeWhile (· ≠ ';'))

/-- The mnemonic of a text, and the operands after it if each is a number. -/
def splitLine (text : List Char) : String × Option (List Nat) :=
  let mnemonic := text.takeWhile (· ≠ ' ')
  let rest := trim (text.drop mnemonic.length)
  (String.ofList mnemonic, parseNumbers (if rest = [] then [] else splitCommas rest))

/-- The instruction a text spells; none where an operand does not fit its field. -/
def instrOfText (text : List Char) : Option Instr :=
  let parts := splitLine text
  match parts.2 with
  | none => none
  | some operands =>
    match instrOf parts.1 operands with
    | none => none
    | some i => if i.wf then some i else none

/-- The instruction a line of R119's syntax spells, up to a comment. -/
def parseInstr (line : String) : Option Instr := instrOfText (lineText line)

/-- The word a line assembles to. -/
def assemble (line : String) : Option Word := (parseInstr line).map encode

/-! ## Lines of a program (R119) -/

/-- What follows `head` at the start of a text. -/
def afterHead : List Char → List Char → Option (List Char)
  | [], text => some text
  | _ :: _, [] => none
  | p :: head, c :: text => if p = c then afterHead head text else none

/-- The words of a text between blanks. -/
def splitBlanks : List Char → List (List Char)
  | [] => []
  | ' ' :: rest => splitBlanks rest
  | c :: rest =>
    match rest with
    | [] => [[c]]
    | ' ' :: _ => [c] :: splitBlanks rest
    | _ :: _ =>
      match splitBlanks rest with
      | [] => [[c]]
      | word :: words => (c :: word) :: words

/-- Bytes as hex pairs (00_scope.md R12). -/
def parseBytes : List (List Char) → Option (List Byte)
  | [] => some []
  | word :: words =>
    match digitsValue 16 0 word, parseBytes words with
    | some n, some bytes => if word.length = 2 then some (BitVec.ofNat 8 n :: bytes) else none
    | _, _ => none

/-- `i..] = b0 b1 ...`: the offset and the bytes of a host store. -/
def parseStore (text : List Char) : Option (Nat × List Byte) :=
  let number := text.takeWhile (· ≠ '.')
  match parseNumber number, afterHead ['.', '.', ']'] (text.drop number.length) with
  | some off, some tail =>
    match afterHead ['='] (trim tail) with
    | none => none
    | some bytes => (parseBytes (splitBlanks bytes)).map fun b => (off, b)
  | _, _ => none

/-- The steps of one line of a host program: a store, a POLL, a command or a pseudo-instruction; none of a blank line or
a comment. -/
def parseLine (line : String) : Option (List ProgramLine) :=
  let text := lineText line
  if text = [] then some []
  else if text = ['P', 'O', 'L', 'L'] then some [.poll]
  else
    match afterHead ['S', 'T', 'G', '['] text, afterHead ['N', 'I', 'N', '['] text with
    | some rest, _ => (parseStore rest).map fun r => [.stage r.1 r.2]
    | none, some rest => (parseStore rest).map fun r => [.input r.1 r.2]
    | none, none =>
      match instrOfText text, (splitLine text).2.bind (pseudoOf (splitLine text).1) with
      | some i, _ => some [.command i]
      | none, some l => if l.all Instr.wf then some [.sequence l] else none
      | none, none => none

end Sys2Proof.Machine
end

