-- ==== Sys2Proof/Tests/Slice0.lean ====
section
/-! SUPPORT. Tests. Expected values come from 95_test_vectors.md (the vector is named in each comment) or are worked out
by hand from the rule named. Section 6 shows, for every obligation with hypotheses, that something meets them. -/

namespace Sys2Proof.Machine.Tests

/-! ## Helpers -/

/-- A memory holding `b` from offset 0 on. -/
def holding (b : List Byte) : Memory := writeBytes [] 0 b

/-- After reset, with `b` staged. -/
def staged (b : List Byte) : State := { State.reset with stg := holding b }

/-- After reset, with an input `b` of which `n` bytes are bound. -/
def bound (b : List Byte) (n : Nat) : State :=
  { State.reset with nin := holding b, nlen := BitVec.ofNat 20 n, nstate := .fresh }

/-- `bound`, reading, the cursor at `cur`. -/
def reading (b : List Byte) (n cur : Nat) : State :=
  { bound b n with nstate := .reading, ncur := BitVec.ofNat 20 cur }

/-- What `f` sees of the next state. -/
def seen {α : Type} (o : Result State) (f : State → α) : Option α := (next? o).map f

/-- What `f` sees once the transport has answered from the script. -/
def served {α : Type} (script : List Completion) (o : Result State) (f : State → α) : Option α :=
  (next? (andThen o (serve script))).map fun r => f r.1

/-- The ACK frame of R9 (G1 of 93_implementation_defined.md). -/
def ack : Completion := .okBytes [0x00, 0x00, 0xFF, 0x00, 0xFF, 0x00]

/-- F-RD-1: a frame with echo 03 and payload 32 01 06 07. -/
def frameR : List Byte := [0x00, 0x00, 0xFF, 0x06, 0xFA, 0xD5, 0x03, 0x32, 0x01, 0x06, 0x07, 0xE8, 0x00]

/-- F-RD-7: a frame with payload 32 01 and two bytes of filler. -/
def frameShort : List Byte := [0x00, 0x00, 0xFF, 0x04, 0xFC, 0xD5, 0x03, 0x32, 0x01, 0xF5, 0x00, 0xAA, 0xBB]

/-- N-1: one MIME record, type "tp", value "hello". -/
def tagMime : List Byte := [0x03, 0x0A, 0xD2, 0x02, 0x05, 0x74, 0x70, 0x68, 0x65, 0x6C, 0x6C, 0x6F, 0xFE]

/-- N-8: an UNKNOWN record without ME, then an EMPTY one with it. -/
def tagTwo : List Byte := [0x03, 0x08, 0x95, 0x00, 0x03, 0x01, 0x02, 0x03, 0x50, 0x00, 0x00, 0xFE]

/-- What a failed command in phase RECV with nothing else left to do looks like to `rdresp 4`. -/
def received (b : List Byte) : Option (Word × Word) :=
  served [.okBytes b] (exec (.rdresp 4) State.reset) fun s => (statusWord s.status, resultWord s.result)

/-! ## 1. WellFormed: one ill-formed term for each check -/

theorem test_wf_accepts : (Instr.request 0xFF 511 511).wf = true ∧ (Instr.nbegin 1048575).wf = true := by decide
theorem test_wf_refuses_pack_plen : (Instr.pack 0x00 512).wf = false := by decide
theorem test_wf_refuses_rdresp_rlen : (Instr.rdresp 512).wf = false := by decide
theorem test_wf_refuses_request_plen : (Instr.request 0x00 512 0).wf = false := by decide
theorem test_wf_refuses_request_rlen : (Instr.request 0x00 0 512).wf = false := by decide
theorem test_wf_refuses_send_plen : (Instr.send 0x00 512).wf = false := by decide
theorem test_wf_refuses_nbegin_nlen : (Instr.nbegin 1048576).wf = false := by decide

/-! ## 2. Decoding: words written out from 30_encoding.md R116's bit patterns, and 2.1 -/

theorem test_decode_pack : decode 0b00000000000000000011000101000001 = .ok (.pack 0x14 3) := by decide
theorem test_decode_pack_top_bit : decode 0x00100001 = .ok (.pack 0x00 256) := by decide
theorem test_decode_waitrdy : decode 0b00000000000000000000000000000010 = .ok .waitrdy := by decide
theorem test_decode_rdack : decode 0b00000000000000000000000000000011 = .ok .rdack := by decide
theorem test_decode_rdresp : decode 0b00000000000000000100000000000100 = .ok (.rdresp 4) := by decide
theorem test_decode_request : decode 0b00000010001000000011010000000101 = .ok (.request 0x40 3 17) := by decide
theorem test_decode_send : decode 0b00000000000000000011000101000110 = .ok (.send 0x14 3) := by decide
theorem test_decode_nbegin : decode 0b00000000000000010011000000001000 = .ok (.nbegin 19) := by decide
theorem test_decode_nnext : decode 0b00000000000000000000000000001001 = .ok .nnext := by decide

theorem test_encode : encode (.pack 0x02 0) = 0x00000021 ∧ encode (.rdresp 4) = 0x00004004 ∧
    encode (.request 0x4A 2 19) = 0x026024A5 ∧ encode (.send 0x14 3) = 0x00003146 ∧
    encode (.nbegin 16) = 0x00010008 := by decide

/-- 2.1, illegal words, by name. -/
theorem test_illegal_words :
    decode 0x00000000 = .error (.reservedOpcode 0) ∧ decode 0x00000017 = .error (.reservedOpcode 7) ∧
    decode 0x0000000F = .error (.reservedOpcode 15) ∧ decode 0x10000002 = .error (.mustBeZero 2) ∧
    decode 0x00200001 = .error (.mustBeZero 1) ∧ decode 0x40000005 = .error (.mustBeZero 5) ∧
    decode 0x00000014 = .error (.mustBeZero 4) ∧ decode 0x00001009 = .error (.mustBeZero 9) ∧
    decode 0x00000108 = .error (.mustBeZero 8) := by decide

theorem test_illegal_status : seen (writeCmd 0x00000017 State.reset) (fun s => statusWord s.status) = some 0x000070F2 ∧
    seen (writeCmd 0x00000108 State.reset) (fun s => statusWord s.status) = some 0x000080F2 := by decide

theorem test_table_word : decodeTableWord 32 0x02203405 = some (.request 0x40 3 17) ∧ decodeTableWord 32 0 = none := by
  decide

/-- The word placed is the one the next step runs, and its event is gone afterwards. -/
theorem test_fetch_word : seen (step (State.reset.withFetchWord 32 0x00000009))
    (fun s => (s.cmd, statusWord s.status, itemWord s.nitem, s.events)) = some (0x9, 0x00009002, 3, []) := by decide

/-- 30_encoding.md R119 and Part 3, P2. -/
theorem test_disassemble : disassemble 0x00800025 = "REQUEST 0x02, 0, 4" ∧ disassemble 0x0 = ".word 0x00000000" := by
  decide
theorem test_assemble : assemble "PACK 0x14, 3 ; comment" = some 0x00003141 ∧ assemble "PACK 256, 3" = none := by decide
theorem test_program_line : parseLine "STG[0..] = 01 14 01 ; mode" = some [.stage 0 [0x01, 0x14, 0x01]] := by decide

/-! ## 3. Commands, one step each -/

/-- F-PACK-2: the frame offered. -/
theorem test_pack_frame : seen (exec (.pack 0x14 3) (staged [0x01, 0x00, 0x01])) (fun s => s.pending) =
    some (some (.send [0x00, 0x00, 0xFF, 0x05, 0xFB, 0xD4, 0x14, 0x01, 0x00, 0x01, 0x16, 0x00])) := by decide
/-- F-PACK-10: a failed send. -/
theorem test_pack_fail : served [.fail 0x1234] (exec (.pack 0x02 0) State.reset)
    (fun s => (statusWord s.status, s.terrinfo, readByte s.scr 7)) = some (0x00001112, 0x1234, some 0x2A) := by decide
theorem test_waitrdy : served [.ok] (exec .waitrdy State.reset) (fun s => statusWord s.status) = some 0x00002002 := by
  decide
/-- F-ACK-3: the last byte differs. -/
theorem test_rdack_mismatch : served [.okBytes [0x00, 0x00, 0xFF, 0x00, 0xFF, 0x01]] (exec .rdack State.reset)
    (fun s => (statusWord s.status, s.scr)) = some (0x00003332, []) := by decide
/-- F-RD-1 and F-RD-12: V5 comes before V6. -/
theorem test_rdresp_ok : received frameR = some (0x00004002, 0x00020403) := by decide
theorem test_rdresp_order :
    received [0x00, 0x00, 0xFF, 0x08, 0xF8, 0xD4, 0x03, 0x01, 0x02, 0x03, 0x04, 0x05, 0x06] =
      some (0x00004562, 0) := by decide
/-- H-REQ-10: the second wait never completes; H-REQ-6: it fails. -/
theorem test_request_hang : served [.ok, .ok, ack] (exec (.request 0x02 0 4) State.reset)
    (fun s => statusWord s.status) = some 0x00005401 := by decide
theorem test_request_wait2 : served [.ok, .ok, ack, .fail 0x1234] (exec (.request 0x02 0 4) State.reset)
    (fun s => (statusWord s.status, s.terrinfo)) = some (0x00005412, 0x1234) := by decide
/-- H-SEND-1. -/
theorem test_send : served [.ok, .ok, ack] (exec (.send 0x14 3) (staged [0x01, 0x14, 0x01]))
    (fun s => (statusWord s.status, resultWord s.result)) = some (0x00006002, 0) := by decide
theorem test_nbegin : seen (exec (.nbegin 16) State.reset)
    (fun s => (statusWord s.status, nstateWord s.nstate, offsetWord s.nlen)) = some (0x00008002, 0, 16) := by decide
/-- N-1 and N-12. -/
theorem test_nnext_mime : seen (exec .nnext (bound tagMime 13)) (fun s => (itemWord s.nitem, s.nrecOff, s.nrecLen,
    s.ntypeOff, s.ntypeLen, s.nvalOff, s.nvalLen)) = some (0x0000D221, 2, 10, 5, 2, 7, 5) := by decide
theorem test_nnext_id : seen (exec .nnext (bound
      [0x03, 0x0C, 0xDA, 0x02, 0x03, 0x02, 0x74, 0x70, 0x69, 0x64, 0x61, 0x62, 0x63, 0xFE] 14))
    (fun s => (itemWord s.nitem, s.ntypeOff, s.ntypeLen, s.nvalOff, s.nvalLen, s.ncur)) =
      some (0x0000DA21, 6, 2, 10, 3, 13) := by decide
/-- R263: the TLV length byte is never read; here it is unwritten. -/
theorem test_tlv_length_unread : seen (exec .nnext { bound [] 5 with
      nin := [(0, 0x03), (2, 0xD0), (3, 0x00), (4, 0x00)] }) (fun s => itemWord s.nitem) = some 0x0000D001 := by decide

/-! ## 4. The host port, reset, memory -/

/-- 95_test_vectors.md, conventions: the field places of STATUS. -/
theorem test_status_word : statusWord { busy := false, done := true, err := .badChecksum, phase := .recv, lastop := 5 } =
    0x00005552 := by decide
theorem test_read_unmapped : seen (readReg .word 0x38 State.reset) (fun s => s.hostRead) = some (.word 0) := by decide
theorem test_read_nstate : seen (readReg .word 0x10 State.reset) (fun s => s.hostRead) = some (.word 2) := by decide
theorem test_read_scr_unwritten : fault? (readMem .scr 0 State.reset) = some .unwrittenScratch := by decide
theorem test_write_out_of_range : refused? (writeMem .stg 22 0 State.reset) = some .outOfRange := by decide
theorem test_write_during_parse : refused? (writeMem .nin 0 0 (bound tagTwo 12)) = some .inputWriteDuringParse := by decide
/-- The marks are in the list: a rewrite replaces, an insertion keeps the order. -/
theorem test_write_byte : writeByte (writeByte (writeByte [] 5 0x01) 2 0x02) 5 0x03 = [(2, 0x02), (5, 0x03)] := by decide
/-- F-PACK-12: STG rewritten after acceptance. -/
theorem test_latching : seen (andThen (exec (.pack 0x14 3) (staged [0x01, 0x00, 0x01])) (writeMem .stg 1 0x14))
    (fun s => (s.latch.map (·.payload), readByte s.stg 1)) = some (some [0x01, 0x00, 0x01], some 0x14) := by decide
/-- 2.9: a reset in the stuck state. -/
theorem test_reset_when_stuck : served [.ok] (exec (.request 0x02 0 4) State.reset) resetBlock = some State.reset := by
  decide

/-! ## 5. The companion (2.7) -/

/-- CMP-1. -/
theorem test_firmware : decodePayload .firmwareVersion [0x32, 0x01, 0x06, 0x07] =
    .ok (.firmware 0x32 0x01 0x06 true true true) := by decide
/-- CMP-3. -/
theorem test_firmware_short : decodePayload .firmwareVersion [0x32, 0x01, 0x06] = .error .decoder := by decide
/-- 1.5. -/
theorem test_uid : decodePayload .cardUid
    ([0x01, 0x01, 0x00, 0x04, 0x08, 0x04, 0xAA, 0xBB, 0xCC, 0xDD] ++ List.replicate 9 0x00) =
      .ok (.uid (some [0xAA, 0xBB, 0xCC, 0xDD, 0x00, 0x00, 0x00])) := by decide
/-- CMP-2: the echo is not 02 + 1. -/
theorem test_echo : next? (typedResult .firmwareVersion 0x04 { State.reset with
    status := { busy := false, done := true, err := .none, phase := .idle, lastop := 5 }
    result := { rcmd := 0x03, rplen := 4, rvalid := true } }) = some (some (.error .invalidResponse)) := by decide

/-! ## 6. Witnesses: the hypotheses of the obligations can be met, at the ends of their ranges -/

/-- REQUEST 0x02, 0, 4 accepted after reset: phase SEND. -/
def requesting : State := (next? (exec (.request 0x02 0 4) State.reset)).getD State.reset
/-- RDACK accepted after reset: phase ACK. -/
def acking : State := (next? (exec .rdack State.reset)).getD State.reset
/-- RDRESP 4 accepted after reset: phase RECV. -/
def responding : State := (next? (exec (.rdresp 4) State.reset)).getD State.reset

theorem witness_DecodeOfEncode : (Instr.request 0xFF 511 511).wf = true ∧ (Instr.nbegin 1048575).wf = true ∧
    (Instr.pack 0xFF 511).wf = true ∧ (Instr.rdresp 511).wf = true ∧ (Instr.send 0xFF 511).wf = true := by decide
theorem witness_EncodeOfDecode : decode 0xFFFFF008 = .ok (.nbegin 1048575) ∧
    decode 0x3FFFFFF5 = .ok (.request 0xFF 511 511) := by decide
theorem witness_DecodeAgreesWithMatchAndMask : ∃ r ∈ opcodeTable, r.accepts 0x00003141 = true ∧ r.mnemonic = "PACK" := by
  decide
theorem witness_IllegalWordsAreReservedOrNonzero : opcOf 0x7 = 0x7 ∧ l2Of 0x00200001 ≠ 0 ∧ rsvOf 0x80000006 ≠ 0 ∧
    zOf 0x10 ≠ 0 ∧ cbOf 0x14 ≠ 0 ∧ rsvOf 0x40000005 ≠ 0 ∧ cbOf 0x108 ≠ 0 := by decide
theorem witness_StepRunsTheDecodedCommand : ∃ s : State, s.events = cmdWrite 0x00000009 :: [.reset] ∧
    decode 0x00000009 = .ok .nnext := ⟨{ State.reset with events := [cmdWrite 0x00000009, .reset] }, by decide⟩
theorem witness_IllegalWordFinishesAtOnce : State.reset.idle ∧ decode 0x0 = .error (.reservedOpcode 0) := by decide
theorem witness_CmdWriteWhileBusyIsRefused : requesting.status.busy = true := by decide
theorem witness_OutboundFrameLayout : (List.replicate 253 (0xFF : Byte)).length ≤ 253 :=
  List.length_replicate.le
theorem witness_SendingCommandsOfferTheFrame : (staged (List.replicate 22 0xFF)).idle ∧
    23 + 9 ≤ (staged (List.replicate 22 0xFF)).cfg.bufCap ∧ 22 ≤ (staged (List.replicate 22 0xFF)).cfg.bufCap - 10 ∧
    readBytes (staged (List.replicate 22 0xFF)).stg 0 22 = some (List.replicate 22 0xFF) ∧
    readBytes State.reset.stg 0 0 = some [] := by decide
theorem witness_SentFrameInScratchIsBalanced : (∃ t, exec (.pack 0x02 0) State.reset = .next t) ∧
    (∃ t, exec (.send 0x14 1) (staged [0x01]) = .next t) ∧
    ∃ t, exec (.request 0x14 1 23) (staged [0x01]) = .next t := ⟨⟨_, rfl⟩, ⟨_, rfl⟩, ⟨_, rfl⟩⟩
theorem witness_TooMuchDataSendsNothing : State.reset.idle ∧ State.reset.cfg.bufCap - 10 < 23 ∧
    23 + 9 ≤ State.reset.cfg.bufCap := by decide
/-- N-1 with one byte unwritten after another: the flags, each later header byte, the type, the value. -/
theorem witness_UnwrittenReadsFault :
    ((staged [0x01]).idle ∧ 2 ≤ (staged [0x01]).cfg.bufCap - 10 ∧ readByte (staged [0x01]).stg 1 = none) ∧
    ((reading [0x03, 0x0A] 13 2).idle ∧ readByte (reading [0x03, 0x0A] 13 2).nin 2 = none) ∧
    (readByte (reading [0x03, 0x0A, 0xD2] 13 2).nin 2 = some 0xD2 ∧ 2 + headerLen 0xD2 ≤ 13 ∧
      ∀ k ∈ [1, 2], k < headerLen 0xD2 ∧ readByte (reading [0x03, 0x0A, 0xD2] 13 2).nin (2 + k) = none) ∧
    (readBytes (reading [0x03, 0x0A, 0xD2, 0x02, 0x05, 0x74] 12 2).nin 2 3 = some [0xD2, 0x02, 0x05] ∧
      3 = headerLen 0xD2 ∧ 2 + recTotal (recordOf 2 [0xD2, 0x02, 0x05]) = 12 ∧ tnf 0xD2 = 2 ∧
      readBytes (reading [0x03, 0x0A, 0xD2, 0x02, 0x05, 0x74] 12 2).nin 5 2 = none ∧
      readBytes (reading [0x03, 0x0A, 0xD2, 0x02, 0x05, 0x74, 0x70] 12 2).nin 7 5 = none) ∧
    ((bound [] 1).idle ∧ (bound [] 1).nstate = .fresh ∧ readByte (bound [] 1).nin 0 = none) ∧
    (readByte (bound [0xFF, 0xFF, 0xFF] 4).nin 3 = none ∧
      ∀ j < 4, j ≠ 3 → (bound [0xFF, 0xFF, 0xFF] 4).byteIs j (some 0xFF)) ∧
    (bound [0x00, 0x01, 0x02, 0x03, 0x04] 6).notBlank ∧
      ¬ (bound [0x00, 0x01, 0x02, 0x03, 0x04] 6).byteIs 0 (some 0x03) ∧
      readByte (bound [0x00, 0x01, 0x02, 0x03, 0x04] 6).nin 5 = none := by decide
theorem witness_OversizeCommandsAreRefused : State.reset.status.busy = false ∧ State.reset.cfg.bufCap < 24 + 9 ∧
    State.reset.cfg.ninCap < 65 := by decide
theorem witness_SinglePhaseCommandsIssueTheirCall : State.reset.idle ∧ 23 + 9 ≤ State.reset.cfg.bufCap := by decide

/-- Windows that fail V1, V2, V3, V4, V5 (absent and nonzero), V6 and V7 first, and one that passes. -/
theorem witness_FrameChecksInOrder :
    validateFrame [0x01, 0x00, 0xFF, 0x06, 0xFA, 0xD5, 0x03, 0x32, 0x01, 0x06, 0x07, 0xE9, 0x00] = .error .badResponse ∧
    validateFrame [0x00, 0x00, 0xFF, 0x01, 0xFE, 0x7F, 0x81, 0x00, 0x00] = .error .badChecksum ∧
    validateFrame [0x00, 0x00, 0xFF, 0x00, 0x00, 0x00, 0x00, 0x00, 0x00] = .error .badResponse ∧
    validateFrame [0x00, 0x00, 0xFF, 0x01, 0xFF, 0x7F, 0x81, 0x00, 0x00] = .error .syntaxErr ∧
    validateFrame [0x00, 0x00, 0xFF, 0x03, 0xFD, 0xD5, 0x15, 0x09, 0x0D] = .error .bufferUnderflow ∧
    validateFrame [0x00, 0x00, 0xFF, 0x02, 0xFE, 0xD5, 0x15, 0x16, 0x01] = .error .badResponse ∧
    validateFrame [0x00, 0x00, 0xFF, 0x02, 0xFE, 0xD4, 0x15, 0x16, 0x00] = .error .badResponse ∧
    validateFrame [0x00, 0x00, 0xFF, 0x02, 0xFE, 0xD5, 0x15, 0x17, 0x00] = .error .badChecksum ∧
    validateFrame [0x00, 0x00, 0xFF, 0x02, 0xFE, 0xD5, 0x15, 0x16, 0x00] = .ok (0x15, 0) := by decide
theorem witness_InboundFrameRoundTrip : ([] : List Byte).length ≤ 253 ∧
    (List.replicate 253 (0x00 : Byte)).length ≤ 253 := ⟨Nat.zero_le _, List.length_replicate.le⟩
/-- Offsets 0, 2, 3, 4, 5, 6, 5 + LEN, 6 + LEN, 7 + LEN and the last of F-RD-7, LEN being 4. -/
theorem witness_SingleByteChangesAreDetected : validateFrame frameShort = .ok (0x03, 2) ∧
    (at8 frameShort 3).toNat = 4 ∧
    ∀ k ∈ [0, 2, 3, 4, 5, 6, 9, 10, 11, 12], k < frameShort.length ∧ frameShort[k]? ≠ some 0x77 := by decide
theorem witness_ValidFrameBounds : frameR.length = 4 + 9 ∧ validateFrame frameR = .ok (0x03, 4) ∧
    frameShort.length = 4 + 9 ∧ validateFrame frameShort = .ok (0x03, 2) := by decide
theorem witness_AckMismatchEndsTheCommand : acking.pending = some (.recv 6) ∧
    acking.latch = some { instr := .rdack, payload := [] } ∧ acking.status.phase = .ack ∧
    [0x00, 0x00, 0xFF, 0xFF, 0x00, 0x00] ≠ acking.cfg.ackFrame := by decide

theorem portOk_responding : responding.portOk :=
  ⟨rfl, rfl, rfl, rfl, rfl, by decide, rfl, by decide, by decide⟩
theorem portOk_acking : acking.portOk :=
  ⟨rfl, rfl, rfl, rfl, rfl, by decide, rfl, by decide, by decide⟩
theorem portOk_requesting : requesting.portOk :=
  ⟨rfl, rfl, rfl, rfl, rfl, by decide, ⟨rfl, rfl, by decide, rfl⟩, by decide, by decide⟩

theorem witness_ResponseReadIsValidated : responding.portOk ∧ responding.status.phase = .recv ∧
    responding.latch = some { instr := .rdresp 4, payload := [] } ∧ frameR.length = rlenOf (.rdresp 4) + 9 ∧
    validateFrame frameR = .ok (0x03, 4) ∧
    validateFrame (frameR.set 12 0x01) = .error .badResponse ∧ (frameR.set 12 0x01).length = 13 :=
  ⟨portOk_responding, by decide⟩
theorem witness_TransportFailureEndsTheCommand : (requesting.portOk ∧ requesting.status.busy = true) ∧
    (acking.portOk ∧ acking.status.busy = true ∧ acking.status.phase = .ack) ∧
    responding.portOk ∧ responding.status.busy = true ∧ responding.status.phase = .recv :=
  ⟨⟨portOk_requesting, rfl⟩, ⟨portOk_acking, rfl, rfl⟩, portOk_responding, rfl, rfl⟩
theorem witness_CallsFollowTheRow : State.reset.idle ∧ (∃ t, exec (.request 0x02 0 4) State.reset = .next t) ∧
    readBytes State.reset.stg 0 0 = some [] := ⟨by decide, ⟨_, rfl⟩, rfl⟩
theorem witness_RequestRunsTheHandshake : State.reset.idle ∧ State.reset.cfg.ackFrame.length = 6 ∧
    4 + 9 ≤ State.reset.cfg.bufCap ∧ 0 ≤ State.reset.cfg.bufCap - 10 ∧ readBytes State.reset.stg 0 0 = some [] ∧
    frameR.length = 4 + 9 ∧ validateFrame frameR = .ok (0x03, 4) := by decide
theorem witness_SendRunsWithoutResponse : (staged [0x01]).idle ∧ (staged [0x01]).cfg.ackFrame.length = 6 ∧
    1 ≤ (staged [0x01]).cfg.bufCap - 10 ∧ readBytes (staged [0x01]).stg 0 1 = some [0x01] := by decide
theorem witness_SinglePhaseCommandsFinish : (staged [0x01]).idle ∧ (staged [0x01]).cfg.ackFrame.length = 6 ∧
    readBytes (staged [0x01]).stg 0 1 = some [0x01] := by decide

/-- The second wait fails, and everything succeeds (H-REQ-6, H-REQ-1). -/
theorem witness_HandshakeEndsAsRequest : State.reset.idle ∧
    ∀ script ∈ [[.ok, .ok, ack, .fail 0x1234], [.ok, .ok, ack, .ok, .okBytes frameR]],
      (next? (runSequence (handshake 0x02 0 4) script State.reset)).map (fun r => r.1.status.busy) = some false ∧
      (next? (runSequence [.request 0x02 0 4] script State.reset)).map (fun r => r.1.status.busy) = some false := by
  decide
theorem witness_HandshakeEndsWhenRequestEnds : State.reset.idle ∧ 4 + 9 ≤ State.reset.cfg.bufCap ∧
    fault? (runSequence [.request 0x14 1 4] [] State.reset) = some .unwrittenStage ∧
    refused? (runSequence [.request 0x02 0 4] [.okBytes []] State.reset) = some .badCompletion := by decide
/-- A success, a failed ACK receive, an unwritten payload and a completion of the wrong kind. -/
theorem witness_NotifyEndsAsSend : State.reset.idle ∧
    (next? (runSequence (notify 0x02 0) [.ok, .ok, .fail 0x1234] State.reset)).map (fun r => r.1.status.busy) =
      some false ∧
    fault? (runSequence [.send 0x14 1] [] State.reset) = some .unwrittenStage ∧
    refused? (runSequence [.send 0x02 0] [.okBytes []] State.reset) = some .badCompletion ∧
    (next? (runSequence (notify 0x02 0) [.ok, .ok, ack] State.reset)).map (fun r => r.1.status.busy) = some false ∧
    (next? (runSequence [.send 0x02 0] [.ok, .ok, ack] State.reset)).map (fun r => r.1.status.busy) = some false := by
  decide

theorem witness_NbeginBindsTheInput : State.reset.idle ∧ 64 ≤ State.reset.cfg.ninCap := by decide
theorem witness_NnextAtTheEndYieldsEnd : (State.reset.idle ∧ State.reset.nstate = .complete) ∧
    (reading [0x03, 0x03, 0x90, 0x00, 0x00] 5 5).idle ∧ (reading [0x03, 0x03, 0x90, 0x00, 0x00] 5 5).nstate = .reading ∧
    (reading [0x03, 0x03, 0x90, 0x00, 0x00] 5 5).nlen.toNat ≤
      (reading [0x03, 0x03, 0x90, 0x00, 0x00] 5 5).ncur.toNat := by decide
/-- The second part: N-3. -/
theorem witness_BlankTagIsNotFormatted : (bound [0xFF, 0xFF, 0xFF, 0xFF] 4).idle ∧
    4 ≤ (bound [0xFF, 0xFF, 0xFF, 0xFF] 4).nlen.toNat ∧
    readBytes (bound [0xFF, 0xFF, 0xFF, 0xFF] 4).nin 0 4 = some [0xFF, 0xFF, 0xFF, 0xFF] ∧
    (bound [0xFF, 0xFF, 0xFF] 3).nlen.toNat < 4 ∧
    refused? (exec .nnext (bound [0xFF, 0xFF, 0xFF] 3)) = none ∧ fault? (exec .nnext (bound [0xFF, 0xFF, 0xFF] 3)) = none :=
  by decide
/-- N-1, N-23 and a single byte (byte 0), and N-13 (byte 5). -/
theorem witness_TlvStartHeuristic :
    (∀ s ∈ [bound tagMime 13, bound [0x03, 0x01, 0xD2, 0x02] 4, bound [0x03] 1],
      s.nstate = .fresh ∧ s.byteIs 0 (some 0x03)) ∧
    (bound [0x01, 0x03, 0xA0, 0x0C, 0x34, 0x03] 6).notBlank ∧
    ¬ (bound [0x01, 0x03, 0xA0, 0x0C, 0x34, 0x03] 6).byteIs 0 (some 0x03) ∧
    (bound [0x01, 0x03, 0xA0, 0x0C, 0x34, 0x03] 6).byteIs 5 (some 0x03) := by decide
/-- N-14, N-3 and N-15, under both values of the parameter. -/
theorem witness_NoTlvFoundFollowsTheParameter : ∀ action ∈ [NoTlvAction.endItem, .refuse],
    ∀ x ∈ [(bound [0x00, 0x01, 0x02, 0x03, 0x04, 0x05] 6, some (0x05 : Byte)), (bound [0xFF, 0xFF, 0xFF] 3, none),
        (bound [] 0, none)],
      let s : State := { x.1 with cfg := { Config.atReset with noTlvAction := action } }
      s.idle ∧ s.nstate = .fresh ∧ s.notBlank ∧ ¬ s.byteIs 0 (some 0x03) ∧ s.byteIs 5 x.2 ∧ x.2 ≠ some 0x03 ∧
        s.cfg.noTlvAction = action := by decide
/-- N-1's record (MIME, ME) and N-8's first (UNKNOWN, no ME). -/
theorem witness_NnextYieldsTheRecord :
    ((reading tagMime 13 2).idle ∧ readBytes (reading tagMime 13 2).nin 2 3 = some [0xD2, 0x02, 0x05] ∧
      3 = headerLen 0xD2 ∧ 2 + recTotal (recordOf 2 [0xD2, 0x02, 0x05]) ≤ (reading tagMime 13 2).nlen.toNat ∧
      readBytes (reading tagMime 13 2).nin 5 2 = some [0x74, 0x70] ∧
      readBytes (reading tagMime 13 2).nin 7 5 = some [0x68, 0x65, 0x6C, 0x6C, 0x6F] ∧
      utf8 [0x74, 0x70] = true ∧ utf8 [0x68, 0x65, 0x6C, 0x6C, 0x6F] = true) ∧
    readBytes (reading tagTwo 12 2).nin 2 3 = some [0x95, 0x00, 0x03] ∧ kindOfTnf (tnf 0x95) = .unknown ∧
      2 + recTotal (recordOf 2 [0x95, 0x00, 0x03]) ≤ (reading tagTwo 12 2).nlen.toNat := by decide
/-- N-5 (header), N-4 (payload) and N-20 (bad text). -/
theorem witness_NnextReportsTruncationAndBadText :
    (readByte (reading [0x03, 0x09, 0xC2, 0x02, 0x00, 0x00] 6 2).nin 2 = some 0xC2 ∧ 6 < 2 + headerLen 0xC2) ∧
    (readBytes (reading tagMime 10 2).nin 2 (headerLen 0xD2) = some [0xD2, 0x02, 0x05] ∧
      (reading tagMime 10 2).nlen.toNat < 2 + recTotal (recordOf 2 [0xD2, 0x02, 0x05])) ∧
    readBytes (reading [0x03, 0x06, 0xD2, 0x00, 0x02, 0xC0, 0xAF] 7 2).nin 2 (headerLen 0xD2) =
      some [0xD2, 0x00, 0x02] ∧ tnf 0xD2 = 2 ∧ 2 + recTotal (recordOf 2 [0xD2, 0x00, 0x02]) ≤ 7 ∧
      readBytes (reading [0x03, 0x06, 0xD2, 0x00, 0x02, 0xC0, 0xAF] 7 2).nin 5 2 = some [0xC0, 0xAF] ∧
      utf8 [0xC0, 0xAF] = false := by decide
theorem test_utf8_table : utf8 [0xC3, 0xA9] = true ∧ utf8 [0xED, 0xA0, 0x80] = false ∧
    utf8 [0xF4, 0x8F, 0xBF, 0xBF] = true ∧ utf8 [0xF4, 0x90, 0x80, 0x80] = false ∧ utf8 [0xE0, 0x9F, 0x80] = false ∧
    utf8 [0xE0, 0xA0] = false := by decide
/-- N-8 takes three NNEXT of the five allowed. -/
theorem witness_ParseEndsWithinTheInput : State.reset.cfg.wf ∧
    seen (andThen (exec (.nbegin 12) { State.reset with nin := holding tagTwo }) (nnextTimes (12 / 3 + 1)))
      (fun t => t.nstate) = some .complete := by decide
/-- N-1: the byte at NLEN differs too. -/
theorem witness_NnextDependsOnItsInputAlone :
    State.sameParse (bound tagMime 12) { bound (tagMime.set 12 0x00) 12 with
      result := { rcmd := 0x03, rplen := 4, rvalid := true }, terrinfo := 7, scr := [(0, 0x01)], nitem := .error } := by
  decide
theorem witness_NrpCommandsLeaveTheRestAlone : (bound tagMime 13).idle ∧ (∃ t, exec .nnext (bound tagMime 13) = .next t) ∧
    ∃ t, exec (.nbegin 64) (bound tagMime 13) = .next t := ⟨by decide, ⟨_, rfl⟩, ⟨_, rfl⟩⟩
theorem witness_FcuCommandsLeaveTheNrpAlone : (∃ t, exec .waitrdy (bound tagMime 13) = .next t) ∧
    (∃ t, complete (.fail 7) requesting = .next t) ∧ requesting.status.phase ≠ .recv ∧ requesting.portOk :=
  ⟨⟨_, rfl⟩, ⟨_, rfl⟩, by decide, portOk_requesting⟩

theorem witness_UnmappedOffsetsReadZeroIgnoreWrites : 0x38 ≤ 0x38 ∧ 0x05 % 4 ≠ 0 ∧ 0x04 ≤ 0x34 := by decide
theorem witness_ReservedBitsReadZero : reservedBits 0x04 = 0xFFFF080C ∧ reservedBits 0x34 = 0xFFF00000 ∧
    reservedBits 0x08 = 0xFFFC0000 ∧ reservedBits 0x1C = 0xFFFF008C ∧ reservedBits 0x10 = 0xFFFFFFFC := by decide
theorem witness_BadHostAccessesAreRefused : Width.half ≠ .word ∧ spaceCap State.reset.cfg .scr ≤ 32 ∧
    spaceCap State.reset.cfg .stg ≤ 22 ∧ spaceCap State.reset.cfg .nin ≤ 64 := by decide
theorem witness_HostReadsReturnAndChangeNothing :
    ((∃ t, hostStep (.readReg .word 0x08) requesting = .next t) ∧
      ∃ t, hostStep (.readMem .scr 0) requesting = .next t) ∧
    (requesting.status.busy = true ∧ readByte requesting.scr 31 = none) ∧
    (State.reset.status.busy = false ∧ readByte State.reset.scr 31 = none) ∧
    readByte { State.reset with scr := holding (List.replicate 32 0x05) }.scr 31 = some 0x05 ∧
    readByte (staged (List.replicate 22 0x06)).stg 21 = some 0x06 ∧
    readByte (bound (List.replicate 64 0x07) 64).nin 63 = some 0x07 :=
  ⟨⟨⟨_, rfl⟩, ⟨_, rfl⟩⟩, by decide⟩
theorem witness_HostMemoryWrites : 31 < State.reset.cfg.bufCap ∧ 21 < State.reset.cfg.bufCap - 10 ∧
    63 < State.reset.cfg.ninCap ∧ State.reset.nstate = .complete ∧ (bound tagMime 13).nstate ≠ .complete := by decide
theorem witness_StagingWriteCommutesWithCompletion : 21 < requesting.cfg.bufCap - 10 ∧
    refused? (complete .ok requesting) = none := by decide

/-- The smallest and the largest parameters. -/
theorem witness_ResetMeetsTheInvariant :
    Config.wf { bufCap := 10, ninCap := 1, ackFrame := [0, 0, 0, 0, 0, 0], noTlvAction := .refuse } ∧
    Config.wf { bufCap := 263, ninCap := 1048575, ackFrame := [1, 2, 3, 4, 5, 6], noTlvAction := .endItem } := by decide
/-- A command in progress meets the invariant, and its transport can move it. -/
theorem witness_StepKeepsTheInvariant : State.Inv { requesting with events := [.transport .ok] } ∧
    ∃ t, step { requesting with events := [.transport .ok] } = .next t :=
  ⟨{ cfg := by decide
     port := portOk_requesting
     status := by decide
     memories := by decide
     result := ⟨rfl, rfl⟩
     item := ⟨rfl, rfl, rfl, rfl, rfl, rfl⟩
     parser := ⟨by decide, rfl, rfl⟩ }, ⟨_, rfl⟩⟩
theorem witness_StepKeepsMemoriesCanonical : (requesting.scr.wf ∧ requesting.stg.wf ∧ requesting.nin.wf) ∧
    ∃ t, step { requesting with events := [.host (.writeMem .stg 3 0x05)] } = .next t := ⟨by decide, ⟨_, rfl⟩⟩
theorem witness_StepKeepsTheParameters : ∃ t, step { requesting with events := [.reset] } = .next t := ⟨_, rfl⟩
theorem witness_HostCannotMoveACommand : requesting.status.busy = true ∧
    ∃ t, hostStep (.writeMem .stg 0 0x05) requesting = .next t := ⟨rfl, ⟨_, rfl⟩⟩
theorem witness_BusyEndsOnlyByCompletionOrReset : requesting.status.busy = true ∧
    (∃ t, step { requesting with events := [.transport (.fail 7)] } = .next t ∧ t.status.busy = false) ∧
    ∃ t, step { requesting with events := [.reset] } = .next t ∧ t.status.busy = false :=
  ⟨rfl, ⟨_, rfl, rfl⟩, ⟨_, rfl, rfl⟩⟩
theorem witness_DecodeChecksTheLength : ResultType.cardUid ≠ .unit ∧
    (List.replicate 18 (0x00 : Byte)).length ≠ declaredLen .cardUid := by decide
theorem witness_UidIsZeroPadded : (0x01 :: List.replicate 18 (0x00 : Byte)).length = 19 ∧
    at8 (0x01 :: List.replicate 18 (0x00 : Byte)) 5 = 0 := by decide

end Sys2Proof.Machine.Tests
end

section
/-! SUPPORT. What a step can do (10_state.md R30): one inversion lemma for the step, for each kind of host access, for a
command word and for the acceptance of each command, in terms of the shared operations. -/

namespace Sys2Proof.Machine

/-! ## The phases of a command (42_handshake.md R193) -/

theorem mem_tail_of_successor {p q : Phase} (l : List Phase) (h : successor p l = some q) : q ∈ l.tail := by
  induction l with
  | nil => simp [successor] at h
  | cons a l ih =>
    cases l with
    | nil => simp [successor] at h
    | cons b rest =>
      rw [successor] at h
      split at h
      · simp_all
      · exact List.mem_cons_of_mem b (ih h)

theorem idle_notMem_phasesOf (i : Instr) : Phase.idle ∉ phasesOf i := by
  cases i <;> simp [phasesOf]

theorem ne_idle_of_mem_phasesOf {i : Instr} {p : Phase} (h : p ∈ phasesOf i) : p ≠ .idle :=
  fun e => idle_notMem_phasesOf i (e ▸ h)

theorem send_notMem_tail_phasesOf (i : Instr) : Phase.send ∉ (phasesOf i).tail := by
  cases i <;> simp [phasesOf]

/-- The phase after another one is one of the row's, and it is not SEND, which every row has first if at all. -/
theorem nextPhase_some {i : Instr} {p q : Phase} (h : nextPhase i p = some q) : q ∈ phasesOf i ∧ q ≠ .send := by
  have hq := mem_tail_of_successor _ h
  exact ⟨List.mem_of_mem_tail hq, fun e => send_notMem_tail_phasesOf i (e ▸ hq)⟩

@[simp] theorem nextPhase_recv (i : Instr) : nextPhase i .recv = none := by
  cases i <;> rfl

/-- A command that has the phase SEND or RECV clears RESULT at acceptance (60_exceptions.md R305). -/
theorem clearsResult_of_phase {i : Instr} {p : Phase} (h : p ∈ phasesOf i) (hp : p = .send ∨ p = .recv) :
    clearsResult i = true := by
  rcases hp with rfl | rfl <;> cases i <;> simp_all [phasesOf, clearsResult]

theorem usesTransport_of_phase {i : Instr} {p : Phase} (h : p ∈ phasesOf i) : usesTransport i = true := by
  cases i <;> simp_all [phasesOf, usesTransport]

/-- Entering a phase other than IDLE and SEND issues the call of that phase (R193). -/
theorem enterPhase_issue {p : Phase} (hidle : p ≠ .idle) (hsend : p ≠ .send) (i : Instr) (s : State) :
    ∃ c, enterPhase p i s = issue c (setPhase p s) ∧ ∀ (s' : State) (l : Latch), l.instr = i → callFits s' l p c := by
  cases p with
  | idle => exact absurd rfl hidle
  | send => exact absurd rfl hsend
  | wait1 => exact ⟨.wait, rfl, fun _ _ _ => trivial⟩
  | ack => exact ⟨.recv 6, rfl, fun _ _ _ => rfl⟩
  | wait2 => exact ⟨.wait, rfl, fun _ _ _ => trivial⟩
  | recv => exact ⟨.recv (rlenOf i + 9), rfl, fun _ _ e => by subst e; rfl⟩

/-- A finished phase is followed by the row's next phase, or the command finishes (R193). -/
theorem advance_cases (i : Instr) (s : State) :
    advance i s = finish s ∨ ∃ p ∈ phasesOf i, p ≠ .send ∧ advance i s = enterPhase p i s := by
  unfold advance
  cases h : nextPhase i s.status.phase with
  | none => exact .inl rfl
  | some p => exact .inr ⟨p, (nextPhase_some h).1, (nextPhase_some h).2, rfl⟩

theorem advance_of_recv (i : Instr) {s : State} (h : s.status.phase = .recv) : advance i s = finish s := by
  simp [advance, h]

/-! ## Acceptance (42_handshake.md R190) -/

/-- Everything the acceptance of a command can do, a next state being answered: no command was in progress, a response
fits the buffer, and the command builds its frame, enters its only phase, or is one of the parser's two. -/
theorem exec_next {i : Instr} {s t : State} (h : exec i s = .next t) :
    s.status.busy = false ∧ (.recv ∈ phasesOf i → rlenOf i + 9 ≤ s.cfg.bufCap) ∧
      ((.send ∈ phasesOf i ∧ phaseSend (cmdbOf i) (plenOf i) (accept i s) = .next t) ∨
        (∃ p ∈ phasesOf i, p ≠ .send ∧ t = enterPhase p i (accept i s)) ∨
        (∃ n, i = .nbegin n ∧ n ≤ s.cfg.ninCap ∧
          t = finish { clearRecord (accept (.nbegin n) s) with
            nlen := toReg20 n, ncur := 0, nstate := .fresh, nitem := .none }) ∨
        (i = .nnext ∧ nextItem (accept .nnext s) = .next t)) := by
  cases i with
  | pack cb plen =>
    obtain ⟨hb, h⟩ := whenIdle_next.1 h
    exact ⟨hb, by simp [phasesOf], .inl ⟨by simp [phasesOf], h⟩⟩
  | send cb plen =>
    obtain ⟨hb, h⟩ := whenIdle_next.1 h
    exact ⟨hb, by simp [phasesOf], .inl ⟨by simp [phasesOf], h⟩⟩
  | request cb plen rlen =>
    obtain ⟨hb, h⟩ := whenIdle_next.1 h
    split at h
    · contradiction
    · next hfit => exact ⟨hb, fun _ => Nat.not_lt.1 hfit, .inl ⟨by simp [phasesOf], h⟩⟩
  | waitrdy =>
    obtain ⟨hb, ⟨⟩⟩ := whenIdle_next.1 h
    exact ⟨hb, by simp [phasesOf], .inr (.inl ⟨.wait1, by simp [phasesOf], by decide, rfl⟩)⟩
  | rdack =>
    obtain ⟨hb, ⟨⟩⟩ := whenIdle_next.1 h
    exact ⟨hb, by simp [phasesOf], .inr (.inl ⟨.ack, by simp [phasesOf], by decide, rfl⟩)⟩
  | rdresp rlen =>
    obtain ⟨hb, h⟩ := whenIdle_next.1 h
    split at h
    · contradiction
    · next hfit =>
      obtain ⟨⟩ := h
      exact ⟨hb, fun _ => Nat.not_lt.1 hfit, .inr (.inl ⟨.recv, by simp [phasesOf], by decide, rfl⟩)⟩
  | nbegin n =>
    obtain ⟨hb, h⟩ := whenIdle_next.1 h
    split at h
    · contradiction
    · next hfit =>
      obtain ⟨⟩ := h
      exact ⟨hb, by simp [phasesOf], .inr (.inr (.inl ⟨n, rfl, Nat.not_lt.1 hfit, rfl⟩))⟩
  | nnext =>
    obtain ⟨hb, h⟩ := whenIdle_next.1 h
    exact ⟨hb, by simp [phasesOf], .inr (.inr (.inr ⟨rfl, h⟩))⟩

/-- What a word written to CMD can do (30_encoding.md R115, 60_exceptions.md R311). -/
theorem writeCmd_next {w : Word} {s t : State} (h : writeCmd w s = .next t) :
    (∃ i, decode w = .ok i ∧ exec i s = .next t) ∨
      (s.status.busy = false ∧ t = raiseErr .illegalCommand (acceptWord w false s)) := by
  unfold writeCmd at h
  split at h
  · next i hi => exact .inl ⟨i, hi, h⟩
  · obtain ⟨hb, ⟨⟩⟩ := whenIdle_next.1 h
    exact .inr ⟨hb, rfl⟩

/-! ## The host's accesses (20_memory.md R85 to R91) -/

theorem readReg_next {w : Width} {off : Nat} {s t : State} (h : readReg w off s = .next t) :
    ∃ r d, t = { s with hostRead := r, draws := d } := by
  cases w with
  | byte => contradiction
  | half => contradiction
  | word =>
    unfold readReg at h
    dsimp only at h
    split at h
    · obtain ⟨⟩ := h; exact ⟨_, _, rfl⟩
    · obtain ⟨⟩ := h; exact ⟨_, s.draws, rfl⟩

theorem readMem_next {m : Space} {off : Nat} {s t : State} (h : readMem m off s = .next t) :
    ∃ r d, t = { s with hostRead := r, draws := d } := by
  unfold readMem at h
  split at h
  · contradiction
  · split at h
    · obtain ⟨⟩ := h; exact ⟨_, _, rfl⟩
    · obtain ⟨b, -, ⟨⟩⟩ := andThen_next.1 h
      exact ⟨_, s.draws, rfl⟩

/-- A write to the window is ignored, or it is a word written to CMD (10_state.md R44). -/
theorem writeReg_next {w : Width} {off : Nat} {v : Word} {s t : State} (h : writeReg w off v s = .next t) :
    t = s ∨ writeCmd v s = .next t := by
  cases w with
  | byte => contradiction
  | half => contradiction
  | word =>
    unfold writeReg at h
    dsimp only at h
    split at h
    · exact .inr h
    · obtain ⟨⟩ := h; exact .inl rfl

/-- A write to a memory is ignored, or it stores its byte in STG, or, no parse being under way, in NIN (R47 to R49). -/
theorem writeMem_next {m : Space} {off : Nat} {b : Byte} {s t : State} (h : writeMem m off b s = .next t) :
    t = s ∨ (off < s.cfg.bufCap - 10 ∧ t = { s with stg := writeByte s.stg off b }) ∨
      (off < s.cfg.ninCap ∧ t = { s with nin := writeByte s.nin off b }) := by
  unfold writeMem at h
  split at h
  · contradiction
  · next hoff =>
    cases m with
    | scr => obtain ⟨⟩ := h; exact .inl rfl
    | stg => obtain ⟨⟩ := h; exact .inr (.inl ⟨Nat.not_le.1 hoff, rfl⟩)
    | nin =>
      dsimp only at h
      split at h
      · obtain ⟨⟩ := h; exact .inr (.inr ⟨Nat.not_le.1 hoff, rfl⟩)
      · contradiction

/-- Everything a host step can do (10_state.md R30): note what was read, store a byte in STG or NIN, or write CMD. A write
that is ignored is the first with nothing noted. -/
theorem hostStep_next {a : HostAction} {s t : State} (h : hostStep a s = .next t) :
    (∃ r d, t = { s with hostRead := r, draws := d }) ∨
      (∃ off b, off < s.cfg.bufCap - 10 ∧ t = { s with stg := writeByte s.stg off b }) ∨
      (∃ off b, off < s.cfg.ninCap ∧ t = { s with nin := writeByte s.nin off b }) ∨
      (∃ w, writeCmd w s = .next t) := by
  cases a with
  | readReg w off => exact .inl (readReg_next h)
  | readMem m off => exact .inl (readMem_next h)
  | writeReg w off v =>
    rcases writeReg_next h with rfl | h
    · exact .inl ⟨t.hostRead, t.draws, rfl⟩
    · exact .inr (.inr (.inr ⟨v, h⟩))
  | writeMem m off b =>
    rcases writeMem_next h with rfl | ⟨hoff, rfl⟩ | ⟨hoff, rfl⟩
    · exact .inl ⟨t.hostRead, t.draws, rfl⟩
    · exact .inr (.inl ⟨off, b, hoff, rfl⟩)
    · exact .inr (.inr (.inl ⟨off, b, hoff, rfl⟩))

/-! ## The step -/

/-- A step performs the next event with that event taken; with none to come nothing moves (log 1). -/
theorem step_next {s t : State} (h : step s = .next t) :
    t = s ∨ ∃ e rest, s.events = e :: rest ∧ stepEvent e { s with events := rest } = .next t := by
  unfold step nextEvent at h
  split at h
  · obtain ⟨⟩ := h; exact .inl rfl
  · next e rest hev => exact .inr ⟨e, rest, hev, h⟩

theorem step_of_event {s : State} {e : Event} {rest : List Event} (h : s.events = e :: rest) :
    step s = stepEvent e { s with events := rest } := by
  simp only [step, nextEvent, h]

end Sys2Proof.Machine
end

section
/-! SUPPORT. The invariant through the shared operations: how a command's end and the issue of a call restore it, from what
holds while the block performs a step (10_state.md R30 to R53). -/

namespace Sys2Proof.Machine

/-! ## Codes -/

theorem toNat_setWidth_4 (w : Word) : (w.setWidth 4).toNat = opcOf w := by
  simp [opcOf, field, BitVec.toNat_setWidth]

/-- Every instruction's word carries its row's opcode (30_encoding.md R115). -/
theorem opcOf_encode (i : Instr) : opcOf (encode i) = Laws.EncodeOpcode.rowOpcode i := by
  cases i with
  | pack cb plen => exact Laws.EncodeOpcode.pack cb plen
  | waitrdy => exact Laws.EncodeOpcode.waitrdy
  | rdack => exact Laws.EncodeOpcode.rdack
  | rdresp rlen => exact Laws.EncodeOpcode.rdresp rlen
  | request cb plen rlen => exact Laws.EncodeOpcode.request cb plen rlen
  | send cb plen => exact Laws.EncodeOpcode.send cb plen
  | nbegin nlen => exact Laws.EncodeOpcode.nbegin nlen
  | nnext => exact Laws.EncodeOpcode.nnext

/-- A command's LASTOP is an opcode that has each of its phases (42_handshake.md R193). -/
theorem lastop_mem_phaseOpcodes {i : Instr} {p : Phase} (h : p ∈ phasesOf i) :
    ((encode i).setWidth 4).toNat ∈ phaseOpcodes p := by
  rw [toNat_setWidth_4, opcOf_encode]
  have table : ∀ q ∈ phasesOf i, Laws.EncodeOpcode.rowOpcode i ∈ phaseOpcodes q := by
    cases i <;> simp [phasesOf, phaseOpcodes, Laws.EncodeOpcode.rowOpcode]
  exact table p h

theorem lastop_mem_idle (v : BitVec 4) : v.toNat ∈ phaseOpcodes .idle := List.mem_range.2 v.isLt

theorem errPhase_idle_of_isNdefError {e : ErrCode} : isNdefError e = true → errPhase e .idle = true := by
  cases e <;> decide

theorem errPhase_transport {p : Phase} (h : p ≠ .idle) : errPhase .transport p = true := by
  simpa [errPhase] using h

theorem error_of_ite {α : Type} {p : Prop} [Decidable p] {e e' : ErrCode} {k : Except ErrCode α}
    (h : (if p then .error e' else k) = .error e) : e = e' ∨ k = .error e := by
  split at h
  · exact .inl (Except.error.inj h).symm
  · exact .inr h

/-- The checks V1 to V7 fail with a code of the phase RECV only (41_frame_codec.md R163, 60_exceptions.md R301). -/
theorem errPhase_of_validateFrame_error {b : List Byte} {e : ErrCode} (h : validateFrame b = .error e) :
    errPhase e .recv = true ∧ isNdefError e = false := by
  unfold validateFrame at h
  dsimp only at h
  iterate 8
    rcases error_of_ite h with rfl | h
    · exact ⟨rfl, rfl⟩
  contradiction

/-! ## While a command is performed -/

/-- What holds inside a step, after an acceptance or a call taken: no call is pending, and of the invariant the parts that
say nothing of the port, of STATUS's codes or of the parser. -/
structure State.Between (s : State) : Prop where
  cfg : s.cfg.wf
  pending : s.pending = none
  lastop : s.status.lastop = s.cmd.setWidth 4
  memories : s.memoriesOk
  result : s.resultOk

/-- `finish()` restores the invariant, once the parser's registers agree. -/
theorem State.Between.finish_inv {s : State} (h : s.Between) (hi : s.itemOk) (hp : s.parserOk) : (finish s).Inv where
  cfg := h.cfg
  port := by simp [State.portOk, h.pending, finishStatus]
  status := ⟨h.lastop, fun _ => rfl, lastop_mem_idle _, nofun⟩
  memories := h.memories
  result := h.result
  item := hi
  parser := hp

/-- `raise E` restores it when E belongs to the phase it is raised in (60_exceptions.md R301, R306). -/
theorem State.Between.raiseErr_inv {s : State} {e : ErrCode} (h : s.Between) (hi : s.itemOk) (hp : s.parserOk)
    (hphase : errPhase e s.status.phase = true) (hop : s.status.lastop.toNat ∈ phaseOpcodes s.status.phase)
    (hndef : isNdefError e = true → s.status.lastop = 9 ∧ s.nitem = .error) : (raiseErr e s).Inv where
  cfg := h.cfg
  port := by simp [State.portOk, h.pending, raiseStatus]
  status := ⟨h.lastop, fun _ => hphase, hop, hndef⟩
  memories := h.memories
  result := h.result
  item := hi
  parser := hp

/-- The port's condition, case by case: idle, or one command in progress with its call. -/
theorem State.portOk_cases {s : State} (h : s.portOk) :
    (s.pending = none ∧ s.latch = none ∧ s.status.busy = false) ∨
    ∃ call l, s.pending = some call ∧ s.latch = some l ∧ s.status.busy = true ∧ s.status.done = false ∧
      s.status.err = .none ∧ l.instr.wf = true ∧ s.cmd = encode l.instr ∧ s.status.phase ∈ phasesOf l.instr ∧
      callFits s l s.status.phase call ∧ (.recv ∈ phasesOf l.instr → rlenOf l.instr + 9 ≤ s.cfg.bufCap) ∧
      (clearsResult l.instr = true → s.result.rvalid = false) := by
  unfold State.portOk at h
  split at h
  · next hp hl => exact .inl ⟨hp, hl, h⟩
  · next call l hp hl => exact .inr ⟨call, l, hp, hl, h⟩
  · contradiction
  · contradiction

theorem State.Inv.idle {s : State} (h : s.Inv) (hb : s.status.busy = false) : s.idle := by
  rcases State.portOk_cases h.port with ⟨hp, hl, -⟩ | ⟨-, -, -, -, hbusy, -⟩
  · exact ⟨hb, hp, hl⟩
  · simp [hb] at hbusy

/-- RESULT after acceptance: cleared or as before (60_exceptions.md R305). -/
theorem accept_resultOk {i : Instr} {s : State} (h : s.resultOk) : (accept i s).resultOk := by
  cases hc : clearsResult i with
  | true => simp [State.resultOk, hc]
  | false => simpa [State.resultOk, hc] using h

theorem State.Inv.accept_between {s : State} (h : s.Inv) (hb : s.status.busy = false) (i : Instr) :
    (accept i s).Between where
  cfg := h.cfg
  pending := (h.idle hb).2.1
  lastop := rfl
  memories := h.memories
  result := accept_resultOk h.result

/-! ## An FCU or HSQ command between two of its calls -/

/-- The command `i` is in progress and none of its calls is pending: what holds from its acceptance to its first call, and
from a completion to the next call (42_handshake.md R190). PHASE is left open. -/
structure State.Running (i : Instr) (s : State) : Prop extends s.Between where
  item : s.itemOk
  parser : s.parserOk
  busy : s.status.busy = true
  notDone : s.status.done = false
  noErr : s.status.err = .none
  latched : ∃ p, s.latch = some { instr := i, payload := p }
  wf : i.wf = true
  cmd : s.cmd = encode i
  room : .recv ∈ phasesOf i → rlenOf i + 9 ≤ s.cfg.bufCap
  cleared : clearsResult i = true → s.result.rvalid = false

namespace State.Running

variable {i : Instr} {s : State}

theorem setPhase (h : s.Running i) (p : Phase) : (setPhase p s).Running i := { h with }

theorem latchPayload (h : s.Running i) (p : List Byte) : (latchPayload p s).Running i :=
  { h with latched := by obtain ⟨q, hq⟩ := h.latched; exact ⟨p, by simp [hq]⟩ }

theorem setAckcap (h : s.Running i) {b : List Byte} (hb : b.length = 6) : (setAckcap b s).Running i :=
  { h with
    memories := by
      obtain ⟨hscr, hstg, hnin, -⟩ := h.memories
      exact ⟨hscr, hstg, hnin, by simpa using hb⟩ }

theorem failedWith (h : s.Running i) (info : Word) : { s with terrinfo := info }.Running i := { h with }

theorem countDraws (h : s.Running i) (n : Nat) : (countDraws n s).Running i := { h with }

/-- Bytes within the buffer go to SCR only while RESULT describes no frame. -/
theorem writeScr (h : s.Running i) {b : List Byte} (hc : clearsResult i = true) (hb : b.length ≤ s.cfg.bufCap) :
    (writeScr b s).Running i :=
  { h with
    memories := by
      obtain ⟨⟨hwf, hin⟩, hrest⟩ := h.memories
      exact ⟨⟨writeBytes_wf b hwf 0, writeBytes_within b hin 0 (by omega)⟩, hrest⟩
    result := by simpa [State.resultOk, h.cleared hc] using h.result }

theorem lastop_mem (h : s.Running i) (hp : s.status.phase ∈ phasesOf i) :
    s.status.lastop.toNat ∈ phaseOpcodes s.status.phase := by
  rw [h.lastop, h.cmd]
  exact lastop_mem_phaseOpcodes hp

theorem finish_inv (h : s.Running i) : (finish s).Inv := h.toBetween.finish_inv h.item h.parser

/-- An error of the transport or of the frame codec, raised in one of the command's phases. -/
theorem raiseErr_inv (h : s.Running i) (hp : s.status.phase ∈ phasesOf i) {e : ErrCode}
    (he : errPhase e s.status.phase = true) (hn : isNdefError e = false) : (raiseErr e s).Inv :=
  h.toBetween.raiseErr_inv h.item h.parser he (h.lastop_mem hp) (by simp [hn])

theorem failTransport_inv (h : s.Running i) (hp : s.status.phase ∈ phasesOf i) (info : Word) :
    (failTransport info s).Inv :=
  (h.failedWith info).raiseErr_inv hp (errPhase_transport (ne_idle_of_mem_phasesOf hp)) rfl

/-- Issuing the call of the phase restores the invariant (R193). -/
theorem issue_inv (h : s.Running i) (hp : s.status.phase ∈ phasesOf i) {c : Call}
    (hc : ∀ l, s.latch = some l → callFits s l s.status.phase c) : (issue c s).Inv where
  cfg := h.cfg
  port := by
    obtain ⟨p, hl⟩ := h.latched
    have hfits := hc _ hl
    simp only [State.portOk, issue_pending, issue_latch, hl]
    exact ⟨h.busy, h.notDone, h.noErr, h.wf, h.cmd, hp, hfits, h.room, h.cleared⟩
  status := ⟨h.lastop, fun hb => by simp [h.busy] at hb, h.lastop_mem hp, fun he => by simp [h.noErr, isNdefError] at he⟩
  memories := h.memories
  result := h.result
  item := h.item
  parser := h.parser

theorem enterPhase_inv (h : s.Running i) {p : Phase} (hp : p ∈ phasesOf i) (hsend : p ≠ .send) :
    (enterPhase p i s).Inv := by
  obtain ⟨c, heq, hfits⟩ := enterPhase_issue (ne_idle_of_mem_phasesOf hp) hsend i s
  rw [heq]
  refine (h.setPhase p).issue_inv hp fun l hl => hfits _ l ?_
  obtain ⟨q, hq⟩ := h.latched
  obtain rfl : _ = l := Option.some.inj (hq.symm.trans hl)
  rfl

theorem advance_inv (h : s.Running i) : (advance i s).Inv := by
  rcases advance_cases i s with heq | ⟨p, hp, hsend, heq⟩
  · exact heq ▸ h.finish_inv
  · exact heq ▸ h.enterPhase_inv hp hsend

end State.Running

end Sys2Proof.Machine
end

section
/-! SUPPORT. Acceptance and completion of the FCU and HSQ commands keep the invariant (41_frame_codec.md, 42_handshake.md). -/

namespace Sys2Proof.Machine

/-! ## Acceptance -/

theorem State.Inv.accept_running {s : State} (h : s.Inv) (hb : s.status.busy = false) {i : Instr} (hwf : i.wf = true)
    (huses : usesTransport i = true) (hroom : .recv ∈ phasesOf i → rlenOf i + 9 ≤ s.cfg.bufCap) :
    (accept i s).Running i where
  toBetween := h.accept_between hb i
  item := h.item
  parser := h.parser
  busy := by simp [acceptStatus, huses]
  notDone := rfl
  noErr := rfl
  latched := ⟨[], rfl⟩
  wf := hwf
  cmd := rfl
  room := hroom
  cleared := fun hc => by simp [hc]

/-- The SEND phase (41_frame_codec.md R143): TOO_MUCH_DATA, or the frame offered, which SCR then holds. -/
theorem State.Running.phaseSend_inv {i : Instr} {s t : State} (h : s.Running i) (hsend : .send ∈ phasesOf i)
    (ht : phaseSend (cmdbOf i) (plenOf i) s = .next t) : t.Inv := by
  rcases phaseSend_next.1 ht with ⟨-, rfl⟩ | ⟨hfit, p, hp, rfl⟩
  · exact (h.setPhase .send).raiseErr_inv hsend rfl rfl
  · have hlen : p.length = plenOf i := readBytes_length hp
    have hbuf : (buildFrame (cmdbOf i) p).length ≤ s.cfg.bufCap := by
      have := h.cfg.1.1
      rw [buildFrame_length]; omega
    have hrun := ((h.setPhase .send).latchPayload p).writeScr (clearsResult_of_phase hsend (.inl rfl)) hbuf
    refine hrun.issue_inv hsend fun l hl => ?_
    obtain ⟨q, hq⟩ := h.latched
    obtain rfl : _ = l := by simpa [hq] using hl
    exact ⟨rfl, hlen, hfit, readBytes_writeBytes_same _ _ _⟩

/-! ## Completion -/

/-- When the pending call is taken the command is between two calls, and the call was that of its phase (R193). -/
theorem State.Inv.takeCall_running {s : State} (h : s.Inv) {call : Call} {l : Latch} (hc : s.pending = some call)
    (hl : s.latch = some l) :
    (takeCall s).Running l.instr ∧ s.status.phase ∈ phasesOf l.instr ∧ callFits s l s.status.phase call := by
  rcases State.portOk_cases h.port with ⟨hnone, -⟩ |
    ⟨call', l', hc', hl', hbusy, hdone, herr, hwf, hcmd, hphase, hfits, hroom, hcleared⟩
  · simp [hc] at hnone
  · obtain rfl : call' = call := Option.some.inj (hc'.symm.trans hc)
    obtain rfl : l' = l := Option.some.inj (hl'.symm.trans hl)
    exact ⟨{ cfg := h.cfg
             pending := rfl
             lastop := h.status.1
             memories := h.memories
             result := h.result
             item := h.item
             parser := h.parser
             busy := hbusy
             notDone := hdone
             noErr := herr
             latched := ⟨_, hl⟩
             wf := hwf
             cmd := hcmd
             room := hroom
             cleared := hcleared }, hphase, hfits⟩

/-- A receive is pending in ACK for 6 bytes, or in RECV for the window (41_frame_codec.md R152, R162). -/
theorem callFits_recv {s : State} {l : Latch} {p : Phase} {n : Nat} (h : callFits s l p (.recv n)) :
    (p = .ack ∧ n = 6) ∨ (p = .recv ∧ n = rlenOf l.instr + 9) := by
  cases p with
  | ack => exact .inl ⟨rfl, h⟩
  | recv => exact .inr ⟨rfl, h⟩
  | idle => contradiction
  | send => contradiction
  | wait1 => contradiction
  | wait2 => contradiction

theorem getElem?_eq_at8 {b : List Byte} {k : Nat} (h : k < b.length) : b[k]? = some (at8 b k) := by
  simp [at8, h]

/-- RESULT describes the valid frame just written to SCR (R163, R166, R171). -/
theorem resultOk_of_validateFrame {s : State} {b : List Byte} {c : Byte} {n : Nat} (hv : validateFrame b = .ok (c, n))
    (hb : b.length ≤ s.cfg.bufCap) : (setResult c n (writeScr b s)).resultOk := by
  obtain ⟨-, -, h2, hlt, -, -, -, rfl, rfl⟩ := validateFrame_ok.1 hv
  have h256 := (at8 b 3).isLt
  have hn : (BitVec.ofNat 9 ((at8 b 3).toNat - 2)).toNat = (at8 b 3).toNat - 2 :=
    Nat.mod_eq_of_lt (by omega)
  have hread : ∀ k < b.length, readByte (writeBytes s.scr 0 b) k = some (at8 b k) := fun k hk => by
    rw [readByte_writeBytes, if_pos (by omega), Nat.sub_zero, getElem?_eq_at8 hk]
  simp only [State.resultOk, setResult_result, setResult_scr, writeScr_scr, setResult_cfg, writeScr_cfg, if_true, hn]
  refine ⟨hread 6 (by omega), (readBytes_isSome _ _ _).2 fun k hk => ?_, by omega⟩
  rw [hread (7 + k) (by omega)]
  rfl

namespace State.Running

variable {i : Instr} {s : State}

theorem recv_room (h : s.Running i) (hp : s.status.phase ∈ phasesOf i) (hrecv : s.status.phase = .recv) :
    clearsResult i = true ∧ rlenOf i + 9 ≤ s.cfg.bufCap :=
  ⟨clearsResult_of_phase hp (.inr hrecv), h.room (hrecv ▸ hp)⟩

theorem frameReceived_inv (h : s.Running i) (hp : s.status.phase ∈ phasesOf i) (hrecv : s.status.phase = .recv)
    {b : List Byte} (hb : b.length = rlenOf i + 9) : (frameReceived b i s).Inv := by
  obtain ⟨hclears, hroom⟩ := h.recv_room hp hrecv
  have hrun := h.writeScr hclears (hb.le.trans hroom)
  unfold frameReceived
  split
  · next e he =>
    obtain ⟨hphase, hndef⟩ := errPhase_of_validateFrame_error he
    exact hrun.raiseErr_inv hp (by simpa [hrecv] using hphase) hndef
  · next c n hv =>
    rw [advance_of_recv i (by simpa using hrecv)]
    have hbetween : (setResult c n (Machine.writeScr b s)).Between :=
      { hrun.toBetween with result := resultOk_of_validateFrame hv (hb.le.trans hroom) }
    exact hbetween.finish_inv h.item h.parser

theorem ackReceived_inv (h : s.Running i) (hp : s.status.phase ∈ phasesOf i) (hack : s.status.phase = .ack)
    {b : List Byte} (hb : b.length = 6) : (ackReceived b i s).Inv := by
  unfold ackReceived
  split
  · exact (h.setAckcap hb).raiseErr_inv hp (by simp [hack, errPhase]) rfl
  · exact (h.setAckcap hb).advance_inv

theorem bytesReceived_inv (h : s.Running i) (hp : s.status.phase ∈ phasesOf i) {b : List Byte}
    (hb : (s.status.phase = .ack ∧ b.length = 6) ∨ (s.status.phase = .recv ∧ b.length = rlenOf i + 9)) :
    (bytesReceived b i s).Inv := by
  unfold bytesReceived
  rcases hb with ⟨hack, hb⟩ | ⟨hrecv, hb⟩
  · rw [if_pos hack]
    exact h.ackReceived_inv hp hack hb
  · rw [if_neg (by simp [hrecv])]
    exact h.frameReceived_inv hp hrecv hb

/-- The bytes drawn by a failed receive fill what the receive would have filled (R152, R162). -/
theorem receiveFailed_inv (h : s.Running i) (hp : s.status.phase ∈ phasesOf i) {n : Nat}
    (hn : (s.status.phase = .ack ∧ n = 6) ∨ (s.status.phase = .recv ∧ n = rlenOf i + 9)) (info : Word) :
    (receiveFailed n info s).Inv := by
  have hlen := drawnBytes_length s.draws n
  rcases hn with ⟨hack, rfl⟩ | ⟨hrecv, rfl⟩
  · simp only [receiveFailed, hack, if_true]
    exact ((h.setAckcap hlen).countDraws 6).failTransport_inv hp info
  · obtain ⟨hclears, hroom⟩ := h.recv_room hp hrecv
    simp only [receiveFailed, hrecv, reduceCtorEq, if_false]
    exact ((h.writeScr hclears (hlen.le.trans hroom)).countDraws _).failTransport_inv hp info

end State.Running

/-- Every completion keeps the invariant. -/
theorem State.Inv.complete_inv {s t : State} (h : s.Inv) {c : Completion} (ht : complete c s = .next t) : t.Inv := by
  rcases complete_next ht with ⟨-, rfl⟩ | ⟨call, l, hc, hl, hcases⟩
  · exact h
  · obtain ⟨hrun, hphase, hfits⟩ := h.takeCall_running hc hl
    rcases hcases with ⟨-, -, -, rfl⟩ | ⟨-, -, rfl⟩ | ⟨b, rfl, -, rfl⟩ | ⟨info, -, -, rfl⟩ | ⟨n, info, rfl, -, rfl⟩
    · exact hrun.advance_inv
    · exact hrun.advance_inv
    · exact hrun.bytesReceived_inv hphase (callFits_recv hfits)
    · exact hrun.failTransport_inv hphase info
    · exact hrun.receiveFailed_inv hphase (callFits_recv hfits) info

end Sys2Proof.Machine
end

section
/-! SUPPORT. NBEGIN and NNEXT keep the invariant (44_ndef_parser.md): each outcome of the parser leaves item registers that
agree with the item, the cursor and NSTATE. -/

namespace Sys2Proof.Machine

/-- What holds while NNEXT runs: no phase has been entered, LASTOP is its opcode, and the input bound fits NIN. -/
structure State.Parsing (s : State) : Prop extends s.Between where
  phase : s.status.phase = .idle
  op : s.status.lastop = 9
  bound : s.nlen.toNat ≤ s.cfg.ninCap

theorem State.Inv.accept_parsing {s : State} (h : s.Inv) (hb : s.status.busy = false) : (accept .nnext s).Parsing where
  toBetween := h.accept_between hb .nnext
  phase := rfl
  op := (by decide : (encode .nnext).setWidth 4 = 9)
  bound := h.parser.1

namespace State.Parsing

variable {s : State}

theorem startReading (h : s.Parsing) (off : Nat) : (startReading off s).Parsing := { h with }

theorem outEnd_inv (h : s.Parsing) : (outEnd s).Inv :=
  have hbetween : { clearRecord s with nitem := .endItem, nstate := .complete }.Between := { h with }
  hbetween.finish_inv ⟨rfl, rfl, rfl, rfl, rfl, rfl⟩ ⟨h.bound, trivial⟩

theorem outError_inv (h : s.Parsing) {e : ErrCode} (he : isNdefError e = true) : (outError e s).Inv :=
  have hbetween : { clearRecord s with nitem := .error, nstate := .complete }.Between := { h with }
  hbetween.raiseErr_inv ⟨rfl, rfl, rfl, rfl, rfl, rfl⟩ ⟨h.bound, trivial⟩
    (by simpa [h.phase] using errPhase_idle_of_isNdefError he)
    (by simpa [h.phase] using lastop_mem_idle s.status.lastop) fun _ => ⟨h.op, rfl⟩

end State.Parsing

/-- A record that lies inside the input leaves item registers that describe it (R264, R268, R273). -/
theorem outRecord_itemOk {s : State} {kind : RecKind} {r : Record} (hkind : kind ∈ yieldedKinds)
    (hhlen : 3 ≤ r.hlen) (hend : r.cur + recTotal r ≤ s.nlen.toNat) : (outRecord kind r s).itemOk := by
  have hlt := s.nlen.isLt
  have htotal : recTotal r = r.hlen + r.tlen + r.plen + r.idlen := rfl
  have hcur := toReg20_toNat (n := r.cur) (by omega)
  have hlen := toReg20_toNat (n := recTotal r) (by omega)
  have hnext := toReg20_toNat (n := r.cur + recTotal r) (by omega)
  simp only [State.itemOk, outRecord_nitem, outRecord_nrecOff, outRecord_nrecLen, outRecord_ncur, outRecord_nlen, hcur,
    hlen, hnext]
  refine ⟨by omega, trivial, hend, hkind, ?_⟩
  by_cases hmime : kind = .mimeMedia
  · have htoff := toReg20_toNat (n := recTypeOff r) (by rw [recTypeOff]; omega)
    have htlen := toReg20_toNat (n := r.tlen) (by omega)
    have hvoff := toReg20_toNat (n := recValOff r) (by rw [recValOff]; omega)
    have hvlen := toReg20_toNat (n := r.plen) (by omega)
    simp only [hmime, if_true, State.textInside, outRecord_nrecOff, outRecord_nrecLen, outRecord_ntypeOff,
      outRecord_ntypeLen, outRecord_nvalOff, outRecord_nvalLen, decide_true, hcur, hlen, htoff, htlen, hvoff, hvlen]
    simp only [recTypeOff, recValOff]
    omega
  · simp [hmime, State.textZero]

/-- After a record NSTATE is COMPLETE exactly when the record ends the message (R274). -/
theorem outRecord_parserOk {s : State} {kind : RecKind} {r : Record} (hn : s.nstate = .reading)
    (hbound : s.nlen.toNat ≤ s.cfg.ninCap) : (outRecord kind r s).parserOk := by
  refine ⟨hbound, ?_⟩
  cases hme : flagME r.flags <;> simp [hme, hn]

namespace State.Parsing

variable {s t : State}

theorem outRecord_inv (h : s.Parsing) (hn : s.nstate = .reading) {kind : RecKind} {r : Record}
    (hkind : kind ∈ yieldedKinds) (hhlen : 3 ≤ r.hlen) (hend : r.cur + recTotal r ≤ s.nlen.toNat) :
    (outRecord kind r s).Inv :=
  State.Between.finish_inv { h with } (outRecord_itemOk hkind hhlen hend) (outRecord_parserOk hn h.bound)

theorem recordStep_inv (h : s.Parsing) (hn : s.nstate = .reading) (ht : recordStep s = .next t) : t.Inv := by
  rcases recordStep_next ht with ⟨-, rfl⟩ | ⟨e, he, rfl⟩ | ⟨kind, hkind, r, hcur, -, hhlen, hfit, rfl⟩
  · exact h.outEnd_inv
  · have hndef : ∀ e ∈ [ErrCode.underflowHeader, .underflowPayload, .utf8], isNdefError e = true := by decide
    exact h.outError_inv (hndef e he)
  · have hge : 3 ≤ r.hlen := hhlen ▸ headerLen_ge r.flags
    have htotal : recTotal r = r.hlen + r.tlen + r.plen + r.idlen := rfl
    rw [remaining] at hfit
    exact h.outRecord_inv hn hkind hge (by omega)

theorem freshStep_inv (h : s.Parsing) (ht : freshStep s = .next t) : t.Inv := by
  rcases freshStep_next ht with rfl | ⟨off, -, ht⟩ | ⟨-, rfl⟩
  · exact h.outError_inv rfl
  · exact (h.startReading off).recordStep_inv rfl ht
  · exact h.outEnd_inv

theorem nextItem_inv (h : s.Parsing) (ht : nextItem s = .next t) : t.Inv := by
  unfold nextItem at ht
  split at ht
  · obtain ⟨⟩ := ht
    exact h.outEnd_inv
  · exact h.freshStep_inv ht
  · next hn => exact h.recordStep_inv hn ht

end State.Parsing

/-- NBEGIN binds an input that NIN holds, with nothing read and no item (R257). -/
theorem State.Inv.nbegin_inv {s : State} (h : s.Inv) (hb : s.status.busy = false) {n : Nat} (hn : n ≤ s.cfg.ninCap) :
    (finish { clearRecord (accept (.nbegin n) s) with
      nlen := toReg20 n, ncur := 0, nstate := .fresh, nitem := .none }).Inv := by
  have hcap : s.cfg.ninCap ≤ 1048575 := h.cfg.2.1.2
  have hbound : (toReg20 n).toNat ≤ s.cfg.ninCap := (toReg20_toNat (by omega)).trans_le hn
  exact State.Between.finish_inv { h.accept_between hb (.nbegin n) with } ⟨rfl, rfl, rfl, rfl, rfl, rfl⟩ ⟨hbound, rfl⟩

end Sys2Proof.Machine
end

section
/-! The invariant holds after reset, and every step of every agent keeps it (O53, O54). -/

namespace Sys2Proof.Machine

/-- The state after reset, whatever its parameters, is idle with empty memories and no input bound (10_state.md R58). -/
theorem resetWith_inv {cfg : Config} (h : cfg.wf) : (State.resetWith cfg).Inv where
  cfg := h
  port := rfl
  status := ⟨rfl, fun _ => rfl, lastop_mem_idle _, nofun⟩
  memories := ⟨⟨rfl, nofun⟩, ⟨rfl, nofun⟩, ⟨rfl, nofun⟩, nofun⟩
  result := ⟨rfl, rfl⟩
  item := ⟨rfl, rfl, rfl, rfl, rfl, rfl⟩
  parser := ⟨Nat.zero_le _, rfl, rfl⟩

namespace State.Inv

variable {s t : State}

/-- The coming events, the host's last read and the count of draws are no part of the invariant. -/
theorem ownFields (h : s.Inv) (r : ReadData) (d : Nat) (ev : List Event) :
    { s with hostRead := r, draws := d, events := ev }.Inv := { h with }

theorem resetBlock_inv (h : s.Inv) : (resetBlock s).Inv :=
  (resetWith_inv h.cfg).ownFields s.hostRead s.draws s.events

/-- An accepted command keeps it, by what its acceptance does (42_handshake.md R190). -/
theorem exec_inv (h : s.Inv) {i : Instr} (hwf : i.wf = true) (hexec : exec i s = .next t) : t.Inv := by
  obtain ⟨hb, hroom, ⟨hsend, ht⟩ | ⟨p, hp, hsend, rfl⟩ | ⟨n, rfl, hn, rfl⟩ | ⟨rfl, ht⟩⟩ := exec_next hexec
  · exact (h.accept_running hb hwf (usesTransport_of_phase hsend) hroom).phaseSend_inv hsend ht
  · exact (h.accept_running hb hwf (usesTransport_of_phase hp) hroom).enterPhase_inv hp hsend
  · exact h.nbegin_inv hb hn
  · exact (h.accept_parsing hb).nextItem_inv ht

/-- An illegal word finishes in its acceptance step (60_exceptions.md R311). -/
theorem illegal_inv (h : s.Inv) (hb : s.status.busy = false) (w : Word) :
    (raiseErr .illegalCommand (acceptWord w false s)).Inv :=
  have hbetween : (acceptWord w false s).Between :=
    { h with pending := (h.idle hb).2.1, lastop := rfl }
  hbetween.raiseErr_inv h.item h.parser rfl (lastop_mem_idle _) nofun

theorem writeCmd_inv (h : s.Inv) {w : Word} (ht : writeCmd w s = .next t) : t.Inv := by
  rcases writeCmd_next ht with ⟨i, hi, ht⟩ | ⟨hb, rfl⟩
  · exact h.exec_inv (decode_wf hi) ht
  · exact h.illegal_inv hb w

theorem stageByte_inv (h : s.Inv) {off : Nat} (hoff : off < s.cfg.bufCap - 10) (b : Byte) :
    { s with stg := writeByte s.stg off b }.Inv :=
  { h with
    memories := by
      obtain ⟨hscr, ⟨hwf, hin⟩, hnin, hack⟩ := h.memories
      exact ⟨hscr, ⟨writeByte_wf hwf off b, writeByte_within hin hoff b⟩, hnin, hack⟩ }

theorem inputByte_inv (h : s.Inv) {off : Nat} (hoff : off < s.cfg.ninCap) (b : Byte) :
    { s with nin := writeByte s.nin off b }.Inv :=
  { h with
    memories := by
      obtain ⟨hscr, hstg, ⟨hwf, hin⟩, hack⟩ := h.memories
      exact ⟨hscr, hstg, ⟨writeByte_wf hwf off b, writeByte_within hin hoff b⟩, hack⟩ }

theorem hostStep_inv (h : s.Inv) {a : HostAction} (ht : hostStep a s = .next t) : t.Inv := by
  rcases hostStep_next ht with ⟨r, d, rfl⟩ | ⟨off, b, hoff, rfl⟩ | ⟨off, b, hoff, rfl⟩ | ⟨w, ht⟩
  · exact h.ownFields r d s.events
  · exact h.stageByte_inv hoff b
  · exact h.inputByte_inv hoff b
  · exact h.writeCmd_inv ht

theorem stepEvent_inv (h : s.Inv) {e : Event} (ht : stepEvent e s = .next t) : t.Inv := by
  cases e with
  | host a => exact h.hostStep_inv ht
  | transport c => exact h.complete_inv ht
  | late c => obtain ⟨⟩ := ht; exact h
  | reset => obtain ⟨⟩ := ht; exact h.resetBlock_inv

end State.Inv

/-- Settles O53: the reset values of R58 meet every part of the invariant. -/
theorem resetMeetsTheInvariant : Obligations.ResetMeetsTheInvariant := fun _ h => resetWith_inv h

/-- Settles O54, by the cases of the event taken: a host access, a completion, a late completion or a reset. -/
theorem stepKeepsTheInvariant : Obligations.StepKeepsTheInvariant := by
  intro s t h ht
  rcases step_next ht with rfl | ⟨e, rest, -, ht⟩
  · exact h
  · exact (h.ownFields s.hostRead s.draws rest).stepEvent_inv ht

end Sys2Proof.Machine
end

section
/-! Every step keeps the byte memories in canonical form (10_state.md R47 to R50; O55): of the operations a step is made of,
only `writeScr` and the host's two stores write a memory. -/

namespace Sys2Proof.Machine

/-- All three memories are in canonical form. -/
def State.Canonical (s : State) : Prop := s.scr.wf ∧ s.stg.wf ∧ s.nin.wf

namespace State.Canonical

variable {s t : State}

theorem writeScr (h : s.Canonical) (b : List Byte) : (writeScr b s).Canonical :=
  ⟨writeBytes_wf b h.1 0, h.2⟩

theorem enterPhase (h : s.Canonical) (p : Phase) (i : Instr) : (enterPhase p i s).Canonical := by
  cases p <;> exact h

theorem advance (h : s.Canonical) (i : Instr) : (advance i s).Canonical := by
  rcases advance_cases i s with heq | ⟨p, -, -, heq⟩
  · exact heq ▸ h
  · exact heq ▸ h.enterPhase p i

theorem phaseSend (h : s.Canonical) {cb : Byte} {plen : Nat} (ht : phaseSend cb plen s = .next t) : t.Canonical := by
  rcases phaseSend_next.1 ht with ⟨-, rfl⟩ | ⟨-, p, -, rfl⟩
  · exact h
  · exact h.writeScr (buildFrame cb p)

/-- The parser's outcomes write no memory (44_ndef_parser.md R256). -/
theorem recordStep (h : s.Canonical) (ht : recordStep s = .next t) : t.Canonical := by
  rcases recordStep_next ht with ⟨-, rfl⟩ | ⟨e, -, rfl⟩ | ⟨kind, -, r, -, -, -, -, rfl⟩
  · exact h
  · exact h
  · exact h

theorem nextItem (h : s.Canonical) (ht : nextItem s = .next t) : t.Canonical := by
  unfold Machine.nextItem at ht
  split at ht
  · obtain ⟨⟩ := ht; exact h
  · rcases freshStep_next ht with rfl | ⟨off, -, ht⟩ | ⟨-, rfl⟩
    · exact h
    · exact recordStep (s := startReading off s) h ht
    · exact h
  · exact h.recordStep ht

theorem exec (h : s.Canonical) {i : Instr} (hexec : exec i s = .next t) : t.Canonical := by
  have haccept : (accept i s).Canonical := h
  obtain ⟨-, -, ⟨-, ht⟩ | ⟨p, -, -, rfl⟩ | ⟨n, rfl, -, rfl⟩ | ⟨rfl, ht⟩⟩ := exec_next hexec
  · exact haccept.phaseSend ht
  · exact haccept.enterPhase p i
  · exact h
  · exact haccept.nextItem ht

theorem bytesReceived (h : s.Canonical) (b : List Byte) (i : Instr) : (bytesReceived b i s).Canonical := by
  unfold Machine.bytesReceived ackReceived frameReceived
  split
  · have hack : (setAckcap b s).Canonical := h
    split
    · exact hack
    · exact hack.advance i
  · split
    · exact h.writeScr b
    · next c n _ =>
      have hresult : (setResult c n (Machine.writeScr b s)).Canonical := h.writeScr b
      exact hresult.advance i

theorem receiveFailed (h : s.Canonical) (n : Nat) (info : Word) : (receiveFailed n info s).Canonical := by
  unfold Machine.receiveFailed
  dsimp only
  split
  · exact h
  · exact h.writeScr (drawnBytes s.draws n)

theorem complete (h : s.Canonical) {c : Completion} (ht : complete c s = .next t) : t.Canonical := by
  rcases complete_next ht with ⟨-, rfl⟩ | ⟨call, l, -, -, hcases⟩
  · exact h
  · have htaken : (takeCall s).Canonical := h
    rcases hcases with ⟨-, -, -, rfl⟩ | ⟨-, -, rfl⟩ | ⟨b, -, -, rfl⟩ | ⟨info, -, -, rfl⟩ | ⟨n, info, -, -, rfl⟩
    · exact htaken.advance l.instr
    · exact htaken.advance l.instr
    · exact htaken.bytesReceived b l.instr
    · exact htaken
    · exact htaken.receiveFailed n info

theorem hostStep (h : s.Canonical) {a : HostAction} (ht : hostStep a s = .next t) : t.Canonical := by
  obtain ⟨hscr, hstg, hnin⟩ := h
  rcases hostStep_next ht with ⟨r, d, rfl⟩ | ⟨off, b, -, rfl⟩ | ⟨off, b, -, rfl⟩ | ⟨w, ht⟩
  · exact ⟨hscr, hstg, hnin⟩
  · exact ⟨hscr, writeByte_wf hstg off b, hnin⟩
  · exact ⟨hscr, hstg, writeByte_wf hnin off b⟩
  · rcases writeCmd_next ht with ⟨i, -, ht⟩ | ⟨-, rfl⟩
    · exact exec ⟨hscr, hstg, hnin⟩ ht
    · exact ⟨hscr, hstg, hnin⟩

theorem stepEvent (h : s.Canonical) {e : Event} (ht : stepEvent e s = .next t) : t.Canonical := by
  cases e with
  | host a => exact h.hostStep ht
  | transport c => exact h.complete ht
  | late c => obtain ⟨⟩ := ht; exact h
  | reset => obtain ⟨⟩ := ht; exact ⟨rfl, rfl, rfl⟩

end State.Canonical

/-- Settles O55, by the cases of the event taken. -/
theorem stepKeepsMemoriesCanonical : Obligations.StepKeepsMemoriesCanonical := by
  intro s t h ht
  rcases step_next ht with rfl | ⟨e, rest, -, ht⟩
  · exact h
  · exact State.Canonical.stepEvent (s := { s with events := rest }) h ht

end Sys2Proof.Machine
end

section
/-! The register words the host reads (10_state.md R32 to R45): their fields (O45), their reserved bits (O44), and the
offsets that hold no register (O43). -/

namespace Sys2Proof.Machine

/-! ## Bits of a word by division -/

theorem extractLsb'_eq_of_toNat {w : Word} {lo n : Nat} {v : BitVec n} (h : w.toNat / 2 ^ lo % 2 ^ n = v.toNat) :
    w.extractLsb' lo n = v :=
  BitVec.eq_of_toNat_eq (by rw [BitVec.extractLsb'_toNat, Nat.shiftRight_eq_div_pow, h])

theorem getLsbD_bitMask {hi lo : Nat} (hle : lo ≤ hi) (hhi : hi < 32) (k : Nat) :
    (bitMask hi lo).getLsbD k = true ↔ lo ≤ k ∧ k ≤ hi := by
  have hpos := Nat.two_pow_pos lo
  have hmask : 2 ^ (hi + 1) - 2 ^ lo = 2 ^ (hi + 1) - ((2 ^ lo - 1) + 1) := by omega
  have hlt : 2 ^ lo - 1 < 2 ^ (hi + 1) := by
    have := Nat.pow_lt_pow_right (a := 2) (by decide) (show lo < hi + 1 by omega)
    omega
  rw [bitMask, BitVec.getLsbD_ofNat, hmask, Nat.testBit_two_pow_sub_succ hlt, Nat.testBit_two_pow_sub_one]
  simp only [Bool.and_eq_true, decide_eq_true_eq, Bool.not_eq_true', decide_eq_false_iff_not]
  omega

/-- A word whose bits `lo` to `hi` are 0 has nothing under that mask. -/
theorem and_bitMask_eq_zero {w : Word} {hi lo : Nat} (hle : lo ≤ hi) (hhi : hi < 32)
    (h : w.toNat / 2 ^ lo % 2 ^ (hi + 1 - lo) = 0) : w &&& bitMask hi lo = 0 := by
  change w &&& bitMask hi lo = 0#32
  refine BitVec.eq_of_getLsbD_eq fun k _ => ?_
  rw [BitVec.getLsbD_and, BitVec.getLsbD_zero, Bool.and_eq_false_iff]
  by_cases hk : lo ≤ k ∧ k ≤ hi
  · left
    have hbit : (w.toNat / 2 ^ lo % 2 ^ (hi + 1 - lo)).testBit (k - lo) = false := by rw [h, Nat.zero_testBit]
    rw [Nat.testBit_mod_two_pow, Nat.testBit_div_two_pow, decide_eq_true (by omega), Bool.true_and,
      Nat.sub_add_cancel hk.1] at hbit
    exact hbit
  · right
    exact Bool.eq_false_iff.2 fun ht => hk ((getLsbD_bitMask hle hhi k).1 ht)

theorem and_or_eq_zero {w a b : Word} (ha : w &&& a = 0) (hb : w &&& b = 0) : w &&& (a ||| b) = 0 := by
  rw [BitVec.and_or_distrib_left, ha, hb]; rfl

/-! ## The words as numbers -/

theorem errCode_lt (e : ErrCode) : errCode e < 16 := by cases e <;> decide
theorem phaseCode_lt (p : Phase) : phaseCode p < 8 := by cases p <;> decide
theorem nstateCode_lt (n : NState) : nstateCode n < 4 := by cases n <;> decide
theorem kindCode_lt (k : RecKind) : kindCode k < 8 := by cases k <;> decide

theorem statusWord_toNat (t : Status) : (statusWord t).toNat =
    t.busy.toNat + t.done.toNat * 2 + errCode t.err * 2 ^ 4 + phaseCode t.phase * 2 ^ 8 + t.lastop.toNat * 2 ^ 12 := by
  have := t.busy.toNat_lt; have := t.done.toNat_lt; have := errCode_lt t.err
  have := phaseCode_lt t.phase; have := t.lastop.isLt
  rw [statusWord, BitVec.toNat_ofNat, Nat.mod_eq_of_lt (by omega)]

theorem resultWord_toNat (r : ResultReg) : (resultWord r).toNat =
    r.rcmd.toNat + r.rplen.toNat * 2 ^ 8 + r.rvalid.toNat * 2 ^ 17 := by
  have := r.rcmd.isLt; have := r.rplen.isLt; have := r.rvalid.toNat_lt
  rw [resultWord, BitVec.toNat_ofNat, Nat.mod_eq_of_lt (by omega)]

theorem nstateWord_toNat (n : NState) : (nstateWord n).toNat = nstateCode n := by
  have := nstateCode_lt n
  rw [nstateWord, BitVec.toNat_ofNat, Nat.mod_eq_of_lt (by omega)]

theorem recordWord_toNat (k : RecKind) (f : Byte) :
    (itemWord (.record k f)).toNat = 1 + kindCode k * 2 ^ 4 + f.toNat * 2 ^ 8 := by
  have := kindCode_lt k; have := f.isLt
  rw [itemWord, BitVec.toNat_ofNat, Nat.mod_eq_of_lt (by omega)]

/-! ## Reserved bits (R45) -/

theorem statusWord_reserved (t : Status) : statusWord t &&& reservedBits 0x04 = 0 := by
  have := t.busy.toNat_lt; have := t.done.toNat_lt; have := errCode_lt t.err
  have := phaseCode_lt t.phase; have := t.lastop.isLt
  refine and_or_eq_zero (and_or_eq_zero ?_ ?_) ?_ <;>
    exact and_bitMask_eq_zero (by decide) (by decide) (by rw [statusWord_toNat]; omega)

theorem resultWord_reserved (r : ResultReg) : resultWord r &&& reservedBits 0x08 = 0 := by
  have := r.rcmd.isLt; have := r.rplen.isLt; have := r.rvalid.toNat_lt
  exact and_bitMask_eq_zero (by decide) (by decide) (by rw [resultWord_toNat]; omega)

theorem nstateWord_reserved (n : NState) : nstateWord n &&& reservedBits 0x10 = 0 := by
  have := nstateCode_lt n
  exact and_bitMask_eq_zero (by decide) (by decide) (by rw [nstateWord_toNat]; omega)

theorem itemWord_reserved (i : Item) : itemWord i &&& reservedBits 0x1C = 0 := by
  cases i with
  | none => decide
  | error => decide
  | endItem => decide
  | record k f =>
    have := kindCode_lt k; have := f.isLt
    refine and_or_eq_zero (and_or_eq_zero ?_ ?_) ?_ <;>
      exact and_bitMask_eq_zero (by decide) (by decide) (by rw [recordWord_toNat]; omega)

theorem offsetWord_reserved (v : BitVec 20) : offsetWord v &&& bitMask 31 20 = 0 := by
  have := v.isLt
  exact and_bitMask_eq_zero (by decide) (by decide)
    (by rw [offsetWord, BitVec.toNat_setWidth, Nat.mod_eq_of_lt (by omega)]; omega)

/-- Settles O44, register by register of the window. -/
theorem reservedBitsReadZero : Obligations.ReservedBitsReadZero := by
  intro s off hoff haligned
  obtain ⟨k, rfl⟩ : ∃ k, off = 4 * k := ⟨off / 4, by omega⟩
  have hk : k < 14 := by omega
  match k, hk with
  | 0, _ => exact BitVec.and_zero
  | 1, _ => exact statusWord_reserved s.status
  | 2, _ => exact resultWord_reserved s.result
  | 3, _ => exact BitVec.and_zero
  | 4, _ => exact nstateWord_reserved s.nstate
  | 5, _ => exact offsetWord_reserved s.ncur
  | 6, _ => exact offsetWord_reserved s.nlen
  | 7, _ => exact itemWord_reserved s.nitem
  | 8, _ => exact offsetWord_reserved s.nrecOff
  | 9, _ => exact offsetWord_reserved s.nrecLen
  | 10, _ => exact offsetWord_reserved s.ntypeOff
  | 11, _ => exact offsetWord_reserved s.ntypeLen
  | 12, _ => exact offsetWord_reserved s.nvalOff
  | 13, _ => exact offsetWord_reserved s.nvalLen

/-! ## Fields and codes -/

theorem statusWord_fields (t : Status) :
    (statusWord t).extractLsb' 0 1 = BitVec.ofBool t.busy ∧ (statusWord t).extractLsb' 1 1 = BitVec.ofBool t.done ∧
      (statusWord t).extractLsb' 4 4 = BitVec.ofNat 4 (errCode t.err) ∧
      (statusWord t).extractLsb' 8 3 = BitVec.ofNat 3 (phaseCode t.phase) ∧
      (statusWord t).extractLsb' 12 4 = t.lastop := by
  have := t.busy.toNat_lt; have := t.done.toNat_lt; have := errCode_lt t.err
  have := phaseCode_lt t.phase; have := t.lastop.isLt
  refine ⟨?_, ?_, ?_, ?_, ?_⟩ <;> refine extractLsb'_eq_of_toNat ?_ <;> rw [statusWord_toNat]
  · rw [BitVec.toNat_ofBool]; omega
  · rw [BitVec.toNat_ofBool]; omega
  · rw [BitVec.toNat_ofNat]; omega
  · rw [BitVec.toNat_ofNat]; omega
  · omega

theorem resultWord_fields (r : ResultReg) :
    (resultWord r).extractLsb' 0 8 = r.rcmd ∧ (resultWord r).extractLsb' 8 9 = r.rplen ∧
      (resultWord r).extractLsb' 17 1 = BitVec.ofBool r.rvalid := by
  have := r.rcmd.isLt; have := r.rplen.isLt; have := r.rvalid.toNat_lt
  refine ⟨?_, ?_, ?_⟩ <;> refine extractLsb'_eq_of_toNat ?_ <;> rw [resultWord_toNat]
  · omega
  · omega
  · rw [BitVec.toNat_ofBool]; omega

theorem recordWord_fields (k : RecKind) (f : Byte) :
    (itemWord (.record k f)).extractLsb' 0 2 = 1 ∧
      (itemWord (.record k f)).extractLsb' 4 3 = BitVec.ofNat 3 (kindCode k) ∧
      (itemWord (.record k f)).extractLsb' 8 8 = f := by
  have := kindCode_lt k; have := f.isLt
  refine ⟨?_, ?_, ?_⟩ <;> refine extractLsb'_eq_of_toNat ?_ <;> rw [recordWord_toNat]
  · rw [show (1 : BitVec 2).toNat = 1 from rfl]; omega
  · rw [BitVec.toNat_ofNat]; omega
  · omega

/-- Settles O45: each field by division, each code by its table. -/
theorem registerFieldsAtTheirBits : Obligations.RegisterFieldsAtTheirBits := by
  refine ⟨fun t => ?_, resultWord_fields, by decide, by decide, fun k f => ?_⟩
  · obtain ⟨hbusy, hdone, herr, hphase, hlastop⟩ := statusWord_fields t
    rw [herr, hphase]
    refine ⟨hbusy, hdone, hlastop, ?_, ?_⟩
    · cases t.err <;> decide
    · cases t.phase <;> decide
  · obtain ⟨htag, hkind, hflags⟩ := recordWord_fields k f
    rw [hkind]
    exact ⟨htag, by cases k <;> decide, hflags⟩

/-! ## Offsets without a register (R44) -/

theorem windowWord_unmapped {off : Nat} (h : 0x38 ≤ off ∨ off % 4 ≠ 0) (s : State) : windowWord s off = 0 := by
  unfold windowWord
  split
  case h_15 => rfl
  all_goals omega

theorem writeReg_ignored {off : Nat} (h : off ≠ 0x00) (v : Word) (s : State) : writeReg .word off v s = .next s :=
  if_neg h

theorem readReg_word {off : Nat} {s : State} (h : ¬ (off = 0x08 ∧ s.status.busy = true)) :
    readReg .word off s = .next { s with hostRead := .word (windowWord s off) } :=
  if_neg h

/-- Settles O43: the window's match ends at 0x34, and only offset 0 takes a write. -/
theorem unmappedOffsetsReadZeroIgnoreWrites : Obligations.UnmappedOffsetsReadZeroIgnoreWrites := by
  refine fun off v s => ⟨fun h => ⟨?_, writeReg_ignored (by omega) v s⟩, fun hlo _ => writeReg_ignored (by omega) v s⟩
  rw [readReg_word (by omega), windowWord_unmapped h]

end Sys2Proof.Machine
end

section
/-! The host's accesses (20_memory.md R82 to R91; O47, O48), the step that takes a command word (O6), and the state after
reset (10_state.md R58, R59; O51, O32). -/

namespace Sys2Proof.Machine

/-! ## Accesses to the memories in range -/

theorem readMem_written {m : Space} {off : Nat} {b : Byte} {s : State} (hoff : off < spaceCap s.cfg m)
    (hdraw : ¬ (m = .scr ∧ s.status.busy = true)) (hb : readByte (spaceMem s m) off = some b) :
    readMem m off s = .next { s with hostRead := .byte b } := by
  rw [readMem, if_neg (Nat.not_le.2 hoff), if_neg hdraw, hb]
  rfl

theorem readMem_unwritten {m : Space} {off : Nat} {s : State} (hoff : off < spaceCap s.cfg m)
    (hdraw : ¬ (m = .scr ∧ s.status.busy = true)) (hb : readByte (spaceMem s m) off = none) :
    readMem m off s = .fault (unwrittenFault m) := by
  rw [readMem, if_neg (Nat.not_le.2 hoff), if_neg hdraw, hb]
  rfl

theorem readMem_draw {off : Nat} {s : State} (hoff : off < spaceCap s.cfg .scr) (hbusy : s.status.busy = true) :
    readMem .scr off s = .next (countDraws 1 { s with hostRead := .byte (Config.freeByte s.draws) }) := by
  rw [readMem, if_neg (Nat.not_le.2 hoff), if_pos ⟨rfl, hbusy⟩]

theorem readReg_draw {s : State} (hbusy : s.status.busy = true) :
    readReg .word 0x08 s = .next (countDraws 1 { s with hostRead := .word (Config.freeWord s.draws) }) :=
  if_pos ⟨rfl, hbusy⟩

theorem writeMem_scr {off : Nat} {s : State} (hoff : off < s.cfg.bufCap) (b : Byte) : writeMem .scr off b s = .next s :=
  if_neg (Nat.not_le.2 hoff)

theorem writeMem_stg {off : Nat} {s : State} (hoff : off < s.cfg.bufCap - 10) (b : Byte) :
    writeMem .stg off b s = .next { s with stg := writeByte s.stg off b } :=
  if_neg (Nat.not_le.2 hoff)

theorem writeMem_nin {off : Nat} {s : State} (hoff : off < s.cfg.ninCap) (b : Byte) :
    writeMem .nin off b s = if s.nstate = .complete then .next { s with nin := writeByte s.nin off b }
      else .refused .inputWriteDuringParse :=
  if_neg (Nat.not_le.2 hoff)

/-! ## Host reads and writes -/

/-- What a host read changes: the record of what was read and the count of draws (log 6, log 14). -/
theorem hostRead_frame {s t : State} {a : HostAction} (ha : (∃ w off, a = .readReg w off) ∨ ∃ m off, a = .readMem m off)
    (h : hostStep a s = .next t) : t = { s with hostRead := t.hostRead, draws := t.draws } := by
  obtain ⟨r, d, rfl⟩ : ∃ r d, t = { s with hostRead := r, draws := d } := by
    rcases ha with ⟨w, off, rfl⟩ | ⟨m, off, rfl⟩
    · exact readReg_next h
    · exact readMem_next h
  rfl

/-- Settles O47, by the kind of access: register, written byte, unwritten byte, draw; then the frame. -/
theorem hostReadsReturnAndChangeNothing : Obligations.HostReadsReturnAndChangeNothing := by
  refine ⟨fun s => ⟨?_, fun off b => ⟨?_, ?_, ?_⟩, ?_, fun hbusy => ⟨⟨_, readReg_draw hbusy⟩, ?_⟩⟩,
    fun s t a => hostRead_frame⟩
  · intro r hr hdraw
    rw [readReg_word hdraw]
    have hword : windowWord s r.1 = r.2 := by
      simp only [List.mem_cons, List.not_mem_nil, or_false] at hr
      rcases hr with rfl | rfl | rfl | rfl | rfl | rfl | rfl | rfl | rfl | rfl | rfl | rfl | rfl | rfl <;> rfl
    rw [hword]
  · exact fun hoff hidle => readMem_written (m := .scr) (s := s) hoff (by simp [hidle])
  · exact fun hoff => readMem_written (m := .stg) (s := s) hoff (by simp)
  · exact fun hoff => readMem_written (m := .nin) (s := s) hoff (by simp)
  · exact fun off hoff hidle => readMem_unwritten (m := .scr) (s := s) hoff (by simp [hidle])
  · exact fun off hoff => ⟨_, readMem_draw hoff hbusy⟩

/-- Settles O48, memory by memory, with the new list's reads those of `writeByte`. -/
theorem hostMemoryWrites : Obligations.HostMemoryWrites := by
  refine fun s off b => ⟨fun hoff => writeMem_scr hoff b, fun hoff => ⟨_, writeMem_stg hoff b, ?_⟩, fun hoff => ⟨?_, ?_⟩⟩
  · exact ⟨readByte_writeByte_same _ _ _, fun k hk => readByte_writeByte_other _ _ hk⟩
  · intro hn
    exact ⟨_, (writeMem_nin hoff b).trans (if_pos hn), readByte_writeByte_same _ _ _,
      fun k hk => readByte_writeByte_other _ _ hk⟩
  · exact fun hn => (writeMem_nin hoff b).trans (if_neg hn)

/-! ## A command word -/

theorem writeCmd_of_decode {w : Word} {i : Instr} (h : decode w = .ok i) (s : State) : writeCmd w s = exec i s := by
  simp only [writeCmd, h]

/-- Settles O6: the event at the head of the list is taken, and writing the word to CMD executes what it decodes to. -/
theorem stepRunsTheDecodedCommand : Obligations.StepRunsTheDecodedCommand :=
  fun s _ _ rest hev hdec => (step_of_event hev).trans (writeCmd_of_decode hdec { s with events := rest })

/-! ## After reset -/

/-- Settles O51: the literal of `State.resetWith`, field by field. -/
theorem resetState : Obligations.ResetState :=
  fun _ => ⟨rfl, (by decide : statusWord State.reset.status = 0), (by decide : resultWord State.reset.result = 0), rfl,
    (by decide : nstateWord .complete = 2), rfl, rfl, rfl, rfl, rfl, rfl, rfl, rfl, rfl, rfl, rfl, rfl, rfl, rfl, rfl⟩

/-- In COMPLETE, NNEXT yields END (44_ndef_parser.md R258). -/
theorem nnext_of_complete {s : State} (hb : s.status.busy = false) (hc : s.nstate = .complete) :
    exec .nnext s = .next (outEnd (accept .nnext s)) := by
  simp only [exec, execNnext, whenIdle_of_idle hb]
  unfold nextItem
  rw [show (accept .nnext s).nstate = .complete from hc]

/-- Settles O32: reset leaves the parser in COMPLETE. -/
theorem nnextAfterResetYieldsEnd : Obligations.NnextAfterResetYieldsEnd :=
  fun _ => ⟨_, nnext_of_complete rfl rfl, rfl, rfl, rfl,
    (by decide : statusWord (outEnd (accept .nnext State.reset)).status = 0x00009002)⟩

end Sys2Proof.Machine
end

section
/-! Reading a byte that nothing has written is a fault (10_state.md R50; O13): the payload of PACK, SEND and REQUEST, and the
input bytes NNEXT reads (44_ndef_parser.md R252, R260 to R270). -/

namespace Sys2Proof.Machine

/-! ## Outcomes that stop -/

/-- A part that may stop with `f` alone, followed by one that stops with `f`, stops with `f`. -/
theorem andThen_eq_fault {α β : Type} {f : Fault} {o : Result α} {k : α → Result β}
    (ho : o = .fault f ∨ ∃ a, o = .next a) (hk : ∀ a, o = .next a → k a = .fault f) : andThen o k = .fault f := by
  rcases ho with rfl | ⟨a, rfl⟩
  · rfl
  · exact hk a rfl

theorem written_cases {α : Type} (f : Fault) (o : Option α) : written f o = .fault f ∨ ∃ a, written f o = .next a := by
  cases o with
  | none => exact .inl rfl
  | some a => exact .inr ⟨a, rfl⟩

theorem andThen_written_fault {α β : Type} {f : Fault} {o : Option α} {k : α → Result β}
    (hk : ∀ a, o = some a → k a = .fault f) : andThen (written f o) k = .fault f :=
  andThen_eq_fault (written_cases f o) fun a ha => hk a (written_next.1 ha)

/-! ## The payload -/

/-- PhaseSend over an unwritten payload byte (41_frame_codec.md R143). -/
theorem phaseSend_unwritten {cb : Byte} {plen k : Nat} {s : State} (hfit : plen ≤ s.cfg.bufCap - 10) (hk : k < plen)
    (h : readByte s.stg k = none) : phaseSend cb plen s = .fault .unwrittenStage := by
  rw [phaseSend, if_neg (Nat.not_lt.2 hfit), readBytes_none (Nat.zero_le k) (by omega) h]
  rfl

/-- The three sending commands on an idle block are acceptance and PhaseSend (R141, 42_handshake.md R201, R202). -/
theorem exec_sending {cb : Byte} {plen rlen : Nat} {s : State} {i : Instr} (hb : s.status.busy = false)
    (hi : i ∈ [Instr.pack cb plen, .send cb plen, .request cb plen rlen])
    (hroom : i = .request cb plen rlen → rlen + 9 ≤ s.cfg.bufCap) : exec i s = phaseSend cb plen (accept i s) := by
  simp only [List.mem_cons, List.not_mem_nil, or_false] at hi
  rcases hi with rfl | rfl | rfl
  · exact whenIdle_of_idle hb
  · exact whenIdle_of_idle hb
  · exact (whenIdle_of_idle hb).trans (if_neg (Nat.not_lt.2 (hroom rfl)))

/-! ## A record's header (R264 to R267) -/

/-- The bytes of PLEN, from offset 2 of the header on: one of a short record, else four (R266). -/
def plenWidth (f : Byte) : Nat := if flagSR f then 1 else 4

theorem headerLen_eq (f : Byte) : headerLen f = 2 + plenWidth f + if flagIL f then 1 else 0 := rfl

theorem readPlen_cases (f : Byte) (cur : Nat) (s : State) :
    readPlen f cur s = .fault .unwrittenInput ∨ ∃ n, readPlen f cur s = .next n := by
  unfold readPlen inputBytes
  split
  · cases readBytes s.nin (cur + 2) 1 with
    | none => exact .inl rfl
    | some b => exact .inr ⟨_, rfl⟩
  · cases readBytes s.nin (cur + 2) 4 with
    | none => exact .inl rfl
    | some b => exact .inr ⟨_, rfl⟩

theorem readPlen_unwritten {f : Byte} {cur : Nat} {s : State} (h : readBytes s.nin (cur + 2) (plenWidth f) = none) :
    readPlen f cur s = .fault .unwrittenInput := by
  unfold readPlen inputBytes
  unfold plenWidth at h
  split <;> simp_all

/-- A header with an unwritten byte after the flags faults, whichever of its fields the byte belongs to. -/
theorem readHeader_unwritten {f : Byte} {cur k : Nat} {s : State} (hk1 : 1 ≤ k) (hk : k < headerLen f)
    (h : readByte s.nin (cur + k) = none) : readHeader f cur s = .fault .unwrittenInput := by
  rw [headerLen_eq] at hk
  refine andThen_written_fault fun tlen htlen => ?_
  have hk2 : k ≠ 1 := fun e => by simp [e ▸ h] at htlen
  by_cases hplen : k < 2 + plenWidth f
  · rw [readPlen_unwritten (readBytes_none (k := cur + k) (by omega) (by omega) h)]
    rfl
  · have hil : flagIL f = true := by
      by_contra hil
      simp [hil] at hk
      omega
    have hlast : cur + headerLen f - 1 = cur + k := by
      simp [hil] at hk
      simp [headerLen_eq, hil]
      omega
    refine andThen_eq_fault (readPlen_cases f cur s) fun plen _ => ?_
    rw [readIdlen, if_pos hil, hlast, h]
    rfl

/-- Every byte of a range that can be read is the byte of the list read. -/
theorem readByte_of_readBytes {m : Memory} {a : Nat} {l : List Byte} (h : readBytes m a l.length = some l) :
    ∀ k < l.length, readByte m (a + k) = some (at8 l k) := fun k hk =>
  (((readBytes_eq_some _ m a l).1 h).2 k hk).trans (getElem?_eq_at8 hk)

theorem readPlen_of_written {cur : Nat} {s : State} {h : List Byte}
    (hbyte : ∀ k < h.length, readByte s.nin (cur + k) = some (at8 h k)) (hlen : h.length = headerLen (at8 h 0)) :
    readPlen (at8 h 0) cur s = .next (recordOf cur h).plen := by
  rw [headerLen_eq, plenWidth] at hlen
  unfold readPlen inputBytes recordOf
  dsimp only
  cases hsr : flagSR (at8 h 0) with
  | true =>
    simp only [hsr, if_true] at hlen ⊢
    simp [readBytes, hbyte 2 (by omega), at8]
  | false =>
    simp only [hsr, Bool.false_eq_true, if_false] at hlen ⊢
    simp [readBytes, Nat.add_assoc, hbyte 2 (by omega), hbyte 3 (by omega), hbyte 4 (by omega), hbyte 5 (by omega), at8]

theorem readIdlen_of_written {cur : Nat} {s : State} {h : List Byte}
    (hbyte : ∀ k < h.length, readByte s.nin (cur + k) = some (at8 h k)) (hlen : h.length = headerLen (at8 h 0)) :
    readIdlen (at8 h 0) cur s = .next (recordOf cur h).idlen := by
  have hge := headerLen_ge (at8 h 0)
  unfold readIdlen recordOf
  dsimp only
  split
  · rw [show cur + headerLen (at8 h 0) - 1 = cur + (h.length - 1) by omega, hbyte (h.length - 1) (by omega)]
    rfl
  · rfl

/-- A fully written header is read as `recordOf` says. -/
theorem readHeader_eq_recordOf {cur : Nat} {s : State} {h : List Byte} (hread : readBytes s.nin cur h.length = some h)
    (hlen : h.length = headerLen (at8 h 0)) : readHeader (at8 h 0) cur s = .next (recordOf cur h) := by
  have hbyte := readByte_of_readBytes hread
  have hge := headerLen_ge (at8 h 0)
  rw [readHeader, hbyte 1 (by omega), written_some, andThen_of_next, readPlen_of_written hbyte hlen, andThen_of_next,
    readIdlen_of_written hbyte hlen, andThen_of_next, ← hlen]
  rfl

/-! ## A record step (R259) -/

theorem recordStep_unwritten_flags {s : State} (hin : s.ncur.toNat < s.nlen.toNat)
    (h : readByte s.nin s.ncur.toNat = none) : recordStep s = .fault .unwrittenInput := by
  have hrem : remaining s s.ncur.toNat ≠ 0 := by rw [remaining]; omega
  simp only [recordStep, if_neg hrem, h, written_none, andThen_of_fault]

/-- With the whole header inside the input, a record step reads the header and goes on by the record's length. -/
theorem recordStep_of_header {s : State} {f : Byte} (hf : readByte s.nin s.ncur.toNat = some f)
    (hin : s.ncur.toNat + headerLen f ≤ s.nlen.toNat) :
    recordStep s = andThen (readHeader f s.ncur.toNat s) fun r =>
      if remaining s s.ncur.toNat < recTotal r then .next (outError .underflowPayload s) else recordBody r s := by
  have hge := headerLen_ge f
  have hrem : remaining s s.ncur.toNat ≠ 0 := by rw [remaining]; omega
  have hhead : ¬ remaining s s.ncur.toNat < headerLen f := by rw [remaining]; omega
  simp only [recordStep, if_neg hrem, hf, written_some, andThen_of_next, if_neg hhead]

theorem recordStep_unwritten_header {s : State} {f : Byte} {k : Nat} (hf : readByte s.nin s.ncur.toNat = some f)
    (hin : s.ncur.toNat + headerLen f ≤ s.nlen.toNat) (hk : k < headerLen f)
    (h : readByte s.nin (s.ncur.toNat + k) = none) : recordStep s = .fault .unwrittenInput := by
  have hk1 : 1 ≤ k := Nat.pos_of_ne_zero fun e => by simp [e, hf] at h
  rw [recordStep_of_header hf hin, readHeader_unwritten hk1 hk h, andThen_of_fault]

/-- A MIME record with an unwritten byte in its type or payload (R270, log 10). -/
theorem mimeBody_unwritten {r : Record} {s : State}
    (h : readBytes s.nin (recTypeOff r) r.tlen = none ∨ readBytes s.nin (recValOff r) r.plen = none) :
    mimeBody r s = .fault .unwrittenInput := by
  refine andThen_written_fault fun ty hty => andThen_written_fault fun val hval => ?_
  simp [hty, hval] at h

theorem recordBody_mime {r : Record} (h : tnf r.flags = 2) (s : State) : recordBody r s = mimeBody r s := by
  simp only [recordBody, h]

theorem recordStep_unwritten_text {s : State} {h : List Byte} {r : Record}
    (hread : readBytes s.nin s.ncur.toNat h.length = some h) (hlen : h.length = headerLen (at8 h 0))
    (hr : recordOf s.ncur.toNat h = r) (hin : s.ncur.toNat + recTotal r ≤ s.nlen.toNat) (htnf : tnf r.flags = 2)
    (htext : readBytes s.nin (recTypeOff r) r.tlen = none ∨ readBytes s.nin (recValOff r) r.plen = none) :
    recordStep s = .fault .unwrittenInput := by
  have hge := headerLen_ge (at8 h 0)
  have hhead : r.hlen = h.length := by subst hr; rfl
  have hfit : ¬ remaining s s.ncur.toNat < recTotal r := by rw [remaining]; omega
  rw [recTotal] at hin
  rw [recordStep_of_header (readByte_of_readBytes hread 0 (by omega)) (by omega), readHeader_eq_recordOf hread hlen, hr,
    andThen_of_next, if_neg hfit, recordBody_mime htnf, mimeBody_unwritten htext]

/-! ## A fresh step (R260 to R263) -/

/-- The blank check stops at an unwritten byte that follows only 0xFF. -/
theorem blankFrom_unwritten {s : State} (n : Nat) : ∀ i k : Nat, k < n → i + k < s.nlen.toNat →
    readByte s.nin (i + k) = none → (∀ j < k, s.byteIs (i + j) (some 0xFF)) →
    blankFrom i n s = .fault .unwrittenInput := by
  induction n with
  | zero => intro i k hk; omega
  | succ n ih =>
    intro i k hk hin h hff
    rw [blankFrom]
    cases k with
    | zero => rw [inputByte_unwritten (i := i) hin h, andThen_of_fault]
    | succ k =>
      have h0 : s.byteIs i (some 0xFF) := hff 0 (by omega)
      rw [inputByte_next.2 h0, andThen_of_next, if_pos rfl]
      have step : ∀ j, i + 1 + j = i + (j + 1) := fun j => by omega
      exact ih (i + 1) k (by omega) (by omega) (step k ▸ h) fun j hj => step j ▸ hff (j + 1) (by omega)

theorem freshStep_unwritten {s : State} {k : Nat} (hk : k < 4) (hin : k < s.nlen.toNat) (h : readByte s.nin k = none)
    (hff : ∀ j < k, s.byteIs j (some 0xFF)) : freshStep s = .fault .unwrittenInput := by
  have hblank := blankFrom_unwritten 4 0 k hk (by simpa using hin) (by simpa using h) (by simpa using hff)
  rw [freshStep, hblank, andThen_of_fault]

theorem freshStep_unwritten_byte5 {s : State} (hnb : s.notBlank) (h0 : ¬ s.byteIs 0 (some 0x03))
    (hin : 5 < s.nlen.toNat) (h : readByte s.nin 5 = none) : freshStep s = .fault .unwrittenInput := by
  rw [freshStep_of_notBlank hnb h0, inputByte_unwritten hin h, andThen_of_fault]

/-- Settles O13, clause by clause: the payload, then NNEXT in READING, then NNEXT in FRESH. -/
theorem unwrittenReadsFault : Obligations.UnwrittenReadsFault := by
  refine ⟨?_, ?_, ?_⟩
  · intro cb plen rlen k s i hidle hi hroom hfit hk h
    rw [exec_sending hidle.1 hi hroom]
    exact phaseSend_unwritten (s := accept i s) hfit hk h
  · intro s hidle hn
    rw [nnext_of_reading hidle.1 hn]
    exact ⟨recordStep_unwritten_flags (s := accept .nnext s),
      fun f k => recordStep_unwritten_header (s := accept .nnext s),
      fun h hread hlen => recordStep_unwritten_text (s := accept .nnext s) hread hlen rfl⟩
  · intro s hidle hn
    rw [nnext_of_fresh hidle.1 hn]
    refine ⟨fun hin h => ?_, fun k hk hin h hff => ?_, freshStep_unwritten_byte5 (s := accept .nnext s)⟩
    · exact freshStep_unwritten (s := accept .nnext s) (by decide) hin h (by simp)
    · exact freshStep_unwritten (s := accept .nnext s) hk hin h fun j hj => hff j (by omega) (by omega)

end Sys2Proof.Machine
end

section
/-! The host beside a command in progress (20_memory.md R82 to R99): the accesses that are refused (O46), what the host
can change while BUSY (O57), that a completion does not look at STG (O49), and how a failed call ends its command (O22). -/

namespace Sys2Proof.Machine

/-! ## Refused accesses (R82, R88) -/

theorem readReg_narrow {w : Width} (h : w ≠ .word) (off : Nat) (s : State) :
    readReg w off s = .refused .narrowAccess := by
  cases w with
  | byte => rfl
  | half => rfl
  | word => exact absurd rfl h

theorem writeReg_narrow {w : Width} (h : w ≠ .word) (off : Nat) (v : Word) (s : State) :
    writeReg w off v s = .refused .narrowAccess := by
  cases w with
  | byte => rfl
  | half => rfl
  | word => exact absurd rfl h

theorem readMem_outOfRange {m : Space} {off : Nat} {s : State} (h : spaceCap s.cfg m ≤ off) :
    readMem m off s = .refused .outOfRange :=
  if_pos h

theorem writeMem_outOfRange {m : Space} {off : Nat} {s : State} (h : spaceCap s.cfg m ≤ off) (b : Byte) :
    writeMem m off b s = .refused .outOfRange :=
  if_pos h

/-- Settles O46: each access makes this check before any other. -/
theorem badHostAccessesAreRefused : Obligations.BadHostAccessesAreRefused :=
  fun s _ off v _ b => ⟨fun hw => ⟨readReg_narrow hw off s, writeReg_narrow hw off v s⟩,
    fun hoff => ⟨readMem_outOfRange hoff, writeMem_outOfRange hoff b⟩⟩

/-! ## The host while BUSY (R99) -/

/-- A word written to CMD has a next state only when no command is in progress (70_reset_and_hazards.md R352). -/
theorem not_busy_of_writeCmd_next {w : Word} {s t : State} (h : writeCmd w s = .next t) : s.status.busy = false := by
  rcases writeCmd_next h with ⟨i, -, hexec⟩ | ⟨hb, -⟩
  · exact (exec_next hexec).1
  · exact hb

/-- While BUSY a host access that answers changes STG, NIN and the model's own fields at most. -/
theorem hostStep_busy_next {a : HostAction} {s t : State} (hbusy : s.status.busy = true) (h : hostStep a s = .next t) :
    ∃ stg nin r d, t = { s with stg := stg, nin := nin, hostRead := r, draws := d } := by
  rcases hostStep_next h with ⟨r, d, rfl⟩ | ⟨off, b, -, rfl⟩ | ⟨off, b, -, rfl⟩ | ⟨w, hw⟩
  · exact ⟨s.stg, s.nin, r, d, rfl⟩
  · exact ⟨writeByte s.stg off b, s.nin, s.hostRead, s.draws, rfl⟩
  · exact ⟨s.stg, writeByte s.nin off b, s.hostRead, s.draws, rfl⟩
  · exact absurd hbusy (by simp [not_busy_of_writeCmd_next hw])

/-- Settles O57: what the host can change while BUSY is none of the fields named. -/
theorem hostCannotMoveACommand : Obligations.HostCannotMoveACommand := by
  intro s t a hbusy h
  obtain ⟨stg, nin, r, d, rfl⟩ := hostStep_busy_next hbusy h
  exact ⟨rfl, rfl, rfl, rfl, rfl, rfl, rfl, rfl⟩

/-! ## Completions keep the parameters -/

theorem enterPhase_cfg (p : Phase) (i : Instr) (s : State) : (enterPhase p i s).cfg = s.cfg := by
  cases p <;> rfl

theorem advance_cfg (i : Instr) (s : State) : (advance i s).cfg = s.cfg := by
  rcases advance_cases i s with heq | ⟨p, -, -, heq⟩
  · rw [heq, finish_cfg]
  · rw [heq, enterPhase_cfg]

theorem bytesReceived_cfg (b : List Byte) (i : Instr) (s : State) : (bytesReceived b i s).cfg = s.cfg := by
  unfold bytesReceived ackReceived frameReceived
  split
  · split
    · rfl
    · rw [advance_cfg, setAckcap_cfg]
  · split
    · rfl
    · rw [advance_cfg, setResult_cfg, writeScr_cfg]

theorem receiveFailed_cfg (n : Nat) (info : Word) (s : State) : (receiveFailed n info s).cfg = s.cfg := by
  unfold receiveFailed
  dsimp only
  split <;> rfl

theorem complete_cfg {c : Completion} {s t : State} (h : complete c s = .next t) : t.cfg = s.cfg := by
  rcases complete_next h with ⟨-, rfl⟩ | ⟨call, l, -, -, hcases⟩
  · rfl
  · rcases hcases with ⟨-, -, -, rfl⟩ | ⟨-, -, rfl⟩ | ⟨b, -, -, rfl⟩ | ⟨info, -, -, rfl⟩ | ⟨n, info, -, -, rfl⟩
    · exact advance_cfg l.instr (takeCall s)
    · exact advance_cfg l.instr (takeCall s)
    · exact bytesReceived_cfg b l.instr (takeCall s)
    · rfl
    · exact receiveFailed_cfg n info (takeCall s)

/-! ## Completions do not look at STG (R87)

Each part of a completion does the same with another STG, and leaves that STG in place. -/

/-- `s` with the contents of STG replaced by `f` of them. -/
def updateStg (f : Memory → Memory) (s : State) : State := { s with stg := f s.stg }

@[simp] theorem updateStg_cfg (f : Memory → Memory) (s : State) : (updateStg f s).cfg = s.cfg := rfl
@[simp] theorem updateStg_status (f : Memory → Memory) (s : State) : (updateStg f s).status = s.status := rfl
@[simp] theorem updateStg_pending (f : Memory → Memory) (s : State) : (updateStg f s).pending = s.pending := rfl
@[simp] theorem updateStg_latch (f : Memory → Memory) (s : State) : (updateStg f s).latch = s.latch := rfl

section
variable (f : Memory → Memory) (i : Instr) (s : State)

theorem enterPhase_updateStg (p : Phase) : enterPhase p i (updateStg f s) = updateStg f (enterPhase p i s) := by
  cases p <;> rfl

theorem advance_updateStg : advance i (updateStg f s) = updateStg f (advance i s) := by
  unfold advance
  rw [updateStg_status]
  cases nextPhase i s.status.phase with
  | none => rfl
  | some p => exact enterPhase_updateStg f i s p

theorem ackReceived_updateStg (b : List Byte) : ackReceived b i (updateStg f s) = updateStg f (ackReceived b i s) := by
  unfold ackReceived
  rw [updateStg_cfg]
  split
  · rfl
  · exact advance_updateStg f i (setAckcap b s)

theorem frameReceived_updateStg (b : List Byte) :
    frameReceived b i (updateStg f s) = updateStg f (frameReceived b i s) := by
  unfold frameReceived
  cases validateFrame b with
  | error e => rfl
  | ok r => exact advance_updateStg f i (setResult r.1 r.2 (writeScr b s))

theorem bytesReceived_updateStg (b : List Byte) :
    bytesReceived b i (updateStg f s) = updateStg f (bytesReceived b i s) := by
  unfold bytesReceived
  rw [updateStg_status]
  split
  · exact ackReceived_updateStg f i s b
  · exact frameReceived_updateStg f i s b

theorem receiveFailed_updateStg (n : Nat) (info : Word) :
    receiveFailed n info (updateStg f s) = updateStg f (receiveFailed n info s) := by
  unfold receiveFailed
  rw [updateStg_status]
  dsimp only
  split <;> rfl

theorem completeCall_updateStg (call : Call) (c : Completion) :
    completeCall call c i (updateStg f s) = andThen (completeCall call c i s) fun t => .next (updateStg f t) := by
  cases call with
  | send bytes =>
    cases c with
    | ok => exact congrArg _ (advance_updateStg f i s)
    | okBytes b => rfl
    | fail info => rfl
  | wait =>
    cases c with
    | ok => exact congrArg _ (advance_updateStg f i s)
    | okBytes b => rfl
    | fail info => rfl
  | recv n =>
    cases c with
    | ok => rfl
    | okBytes b =>
      simp only [completeCall]
      split
      · exact congrArg _ (bytesReceived_updateStg f i s b)
      · rfl
    | fail info => exact congrArg _ (receiveFailed_updateStg f s n info)

theorem complete_updateStg (c : Completion) :
    complete c (updateStg f s) = andThen (complete c s) fun t => .next (updateStg f t) := by
  unfold complete
  rw [updateStg_pending, updateStg_latch]
  cases s.pending with
  | none => cases s.latch <;> rfl
  | some call =>
    cases s.latch with
    | none => rfl
    | some l => exact completeCall_updateStg f l.instr (takeCall s) call c

end

/-- Settles O49: the write updates STG alone, the completion commutes with that, and it leaves BUF_CAP as it was. -/
theorem stagingWriteCommutesWithCompletion : Obligations.StagingWriteCommutesWithCompletion := by
  intro s c off b hoff
  have hwrite : ∀ t : State, t.cfg = s.cfg → writeMem .stg off b t = .next (updateStg (writeByte · off b) t) :=
    fun t ht => writeMem_stg (ht ▸ hoff) b
  rw [hwrite s rfl, andThen_of_next, complete_updateStg]
  cases h : complete c s with
  | next t => exact (hwrite t (complete_cfg h)).symm
  | fault e => rfl
  | refused r => rfl

/-! ## A failed call (R97, 41_frame_codec.md R143, R152, R162, 42_handshake.md R194) -/

theorem callFits_send {s : State} {l : Latch} {p : Phase} {bytes : List Byte} (h : callFits s l p (.send bytes)) :
    p = .send := by
  cases p with
  | send => rfl
  | idle => contradiction
  | wait1 => contradiction
  | ack => contradiction
  | wait2 => contradiction
  | recv => contradiction

theorem callFits_wait {s : State} {l : Latch} {p : Phase} (h : callFits s l p .wait) : p = .wait1 ∨ p = .wait2 := by
  cases p with
  | wait1 => exact .inl rfl
  | wait2 => exact .inr rfl
  | idle => contradiction
  | send => contradiction
  | ack => contradiction
  | recv => contradiction

theorem receiveFailed_of_ack {s : State} (h : s.status.phase = .ack) (n : Nat) (info : Word) :
    receiveFailed n info s = failTransport info (countDraws n (setAckcap (drawnBytes s.draws n) s)) :=
  congrArg (fun u => failTransport info (countDraws n u)) (if_pos h)

theorem receiveFailed_of_not_ack {s : State} (h : s.status.phase ≠ .ack) (n : Nat) (info : Word) :
    receiveFailed n info s = failTransport info (countDraws n (writeScr (drawnBytes s.draws n) s)) :=
  congrArg (fun u => failTransport info (countDraws n u)) (if_neg h)

/-- While BUSY a call is pending, the one of the phase (42_handshake.md R192, R193). -/
theorem State.portOk_busy {s : State} (h : s.portOk) (hbusy : s.status.busy = true) :
    ∃ call l, s.pending = some call ∧ s.latch = some l ∧ callFits s l s.status.phase call := by
  rcases State.portOk_cases h with ⟨-, -, hidle⟩ | ⟨call, l, hc, hl, -, -, -, -, -, -, hfits, -⟩
  · simp [hbusy] at hidle
  · exact ⟨call, l, hc, hl, hfits⟩

/-- The completion that fails the pending call, phase by phase: in ACK and RECV the drawn bytes go where the receive was
to write. -/
theorem complete_fail {s : State} (hport : s.portOk) (hbusy : s.status.busy = true) (info : Word) :
    ∃ scr ack d, complete (.fail info) s =
        .next (failTransport info { takeCall s with scr := scr, ackcap := ack, draws := d }) ∧
      (s.status.phase ≠ .recv → scr = s.scr) ∧ (s.status.phase ≠ .ack → ack = s.ackcap) ∧
      (s.status.phase = .ack → ack = some (drawnBytes s.draws 6)) ∧
      ∀ l, s.latch = some l → s.status.phase = .recv →
        scr = writeBytes s.scr 0 (drawnBytes s.draws (rlenOf l.instr + 9)) := by
  obtain ⟨call, l, hc, hl, hfits⟩ := State.portOk_busy hport hbusy
  have hcall : complete (.fail info) s = completeCall call (.fail info) l.instr (takeCall s) := by
    simp only [complete, hc, hl]
  rw [hcall]
  cases call with
  | send bytes =>
    have hp := callFits_send hfits
    exact ⟨s.scr, s.ackcap, s.draws, rfl, by simp [hp]⟩
  | wait =>
    refine ⟨s.scr, s.ackcap, s.draws, rfl, ?_⟩
    rcases callFits_wait hfits with hp | hp <;> simp [hp]
  | recv n =>
    rcases callFits_recv hfits with ⟨hp, rfl⟩ | ⟨hp, rfl⟩
    · have hfail := receiveFailed_of_ack (s := takeCall s) hp 6 info
      exact ⟨s.scr, some (drawnBytes s.draws 6), s.draws + 6, congrArg _ hfail, by simp [hp]⟩
    · have hfail := receiveFailed_of_not_ack (s := takeCall s) (by simp [hp]) (rlenOf l.instr + 9) info
      exact ⟨writeBytes s.scr 0 (drawnBytes s.draws (rlenOf l.instr + 9)), s.ackcap, s.draws + (rlenOf l.instr + 9),
        congrArg _ hfail, by simp [hp, hl]⟩

/-- After a write of drawn bytes at offset 0 those below their number are written and the others as before (log 8). -/
theorem readByte_writeBytes_drawn (m : Memory) (d n k : Nat) :
    if k < n then (readByte (writeBytes m 0 (drawnBytes d n)) k).isSome = true
    else readByte (writeBytes m 0 (drawnBytes d n)) k = readByte m k := by
  rw [readByte_writeBytes, drawnBytes_length]
  split
  · next hk => simp [hk, drawnBytes]
  · next hk => rw [if_neg (by omega)]

/-- Settles O22: the failed completion is `failTransport` over what the failed receive has written. -/
theorem transportFailureEndsTheCommand : Obligations.TransportFailureEndsTheCommand := by
  intro s info hport hbusy
  obtain ⟨scr, ack, d, hnext, hscr, hack, hdrawn, hwindow⟩ := complete_fail hport hbusy info
  refine ⟨_, hnext, rfl, rfl, ⟨rfl, rfl, rfl⟩, rfl, ⟨rfl, rfl, rfl, rfl, rfl, rfl, rfl, rfl, rfl, rfl⟩, ⟨rfl, rfl, rfl⟩,
    rfl, rfl, rfl, hscr, hack, fun hp => ⟨_, hdrawn hp, drawnBytes_length _ _⟩, fun l hl hp k => ?_⟩
  simp only [failTransport_scr, hwindow l hl hp]
  exact readByte_writeBytes_drawn s.scr s.draws (rlenOf l.instr + 9) k

end Sys2Proof.Machine
end

section
/-! The encoding (30_encoding.md R110 to R117): the round trips (O1, O2), the match and mask table (O3), the illegal
words (O5) and sample words (O4). Each goes through `Reads`, the table of R115 as a relation. -/

namespace Sys2Proof

/-! ## The fields of a word (R111 to R113) -/

/-- A word is its fields of format F at their places (R111). -/
theorem toNat_eq_fields (w : Word) :
    w.toNat = opcOf w + cbOf w * 16 + l1Of w * 4096 + l2Of w * 2097152 + rsvOf w * 1073741824 := by
  simp only [opcOf, cbOf, l1Of, l2Of, rsvOf, field]
  have := w.isLt
  omega

/-- The bits above OPC are the other fields of format F (R112). -/
theorem zOf_eq_fields (w : Word) : zOf w = cbOf w + l1Of w * 256 + l2Of w * 131072 + rsvOf w * 67108864 := by
  simp only [zOf, cbOf, l1Of, l2Of, rsvOf, field]
  have := w.isLt
  omega

/-- NLEN is L1, L2 and RSV together (R113). -/
theorem nlenOf_eq_fields (w : Word) : nlenOf w = l1Of w + l2Of w * 512 + rsvOf w * 262144 := by
  simp only [nlenOf, l1Of, l2Of, rsvOf, field]
  have := w.isLt
  omega

theorem cbOf_lt (w : Word) : cbOf w < 256 := field_lt w 4 8
theorem l1Of_lt (w : Word) : l1Of w < 512 := field_lt w 12 9
theorem l2Of_lt (w : Word) : l2Of w < 512 := field_lt w 21 9
theorem nlenOf_lt (w : Word) : nlenOf w < 1048576 := field_lt w 12 20
theorem opcOf_lt (w : Word) : opcOf w < 16 := field_lt w 0 4

section
variable {opc l1 l2 : Nat} {cb : Byte} (hopc : opc < 16) (h1 : l1 < 512) (h2 : l2 < 512)
include hopc

theorem cbOf_formatF : cbOf (formatF opc cb l1 l2) = cb.toNat := by
  simp only [cbOf, field, formatF, BitVec.toNat_ofNat]
  have := cb.isLt
  omega

theorem rsvOf_formatF : rsvOf (formatF opc cb l1 l2) = 0 := by
  simp only [rsvOf, field, formatF, BitVec.toNat_ofNat]
  have := cb.isLt
  omega

include h1 in
theorem l1Of_formatF : l1Of (formatF opc cb l1 l2) = l1 := by
  simp only [l1Of, field, formatF, BitVec.toNat_ofNat]
  have := cb.isLt
  omega

include h2 in
theorem l2Of_formatF : l2Of (formatF opc cb l1 l2) = l2 := by
  simp only [l2Of, field, formatF, BitVec.toNat_ofNat]
  have := cb.isLt
  omega

theorem cbOf_formatN (nlen : Nat) : cbOf (formatN opc nlen) = 0 := by
  simp only [cbOf, field, formatN, BitVec.toNat_ofNat]
  omega

theorem nlenOf_formatN {nlen : Nat} (h : nlen < 1048576) : nlenOf (formatN opc nlen) = nlen := by
  simp only [nlenOf, field, formatN, BitVec.toNat_ofNat]
  omega

end

/-- Format F built from a word's own fields is the word, its RSV being zero (R111). -/
theorem formatF_fields {w : Word} (h : rsvOf w = 0) :
    formatF (opcOf w) (BitVec.ofNat 8 (cbOf w)) (l1Of w) (l2Of w) = w := by
  refine BitVec.eq_of_toNat_eq ?_
  rw [formatF, BitVec.toNat_ofNat, BitVec.toNat_ofNat, Nat.mod_eq_of_lt (cbOf_lt w), Nat.mod_eq_of_lt (l1Of_lt w),
    Nat.mod_eq_of_lt (l2Of_lt w), toNat_eq_fields w, h]
  have := w.isLt
  rw [toNat_eq_fields w] at this
  omega

theorem formatZ_fields {w : Word} (h : zOf w = 0) : formatZ (opcOf w) = w := by
  refine BitVec.eq_of_toNat_eq ?_
  rw [formatZ, BitVec.toNat_ofNat, toNat_eq_fields w]
  have := zOf_eq_fields w
  have := opcOf_lt w
  omega

theorem formatN_fields {w : Word} (h : cbOf w = 0) : formatN (opcOf w) (nlenOf w) = w := by
  refine BitVec.eq_of_toNat_eq ?_
  rw [formatN, BitVec.toNat_ofNat, Nat.mod_eq_of_lt (nlenOf_lt w), nlenOf_eq_fields, toNat_eq_fields w]
  have := w.isLt
  rw [toNat_eq_fields w] at this
  omega

/-! ## The decoder, row by row (R115) -/

/-- `w` is a legal word and `i` the instruction it stands for: one constructor per row of R115, with the row's OPC and
its must-be-0 fields. -/
inductive Reads (w : Word) : Instr → Prop where
  | pack (opc : opcOf w = 1) (l2 : l2Of w = 0) (rsv : rsvOf w = 0) :
    Reads w (.pack (BitVec.ofNat 8 (cbOf w)) (l1Of w))
  | waitrdy (opc : opcOf w = 2) (z : zOf w = 0) : Reads w .waitrdy
  | rdack (opc : opcOf w = 3) (z : zOf w = 0) : Reads w .rdack
  | rdresp (opc : opcOf w = 4) (cb : cbOf w = 0) (l2 : l2Of w = 0) (rsv : rsvOf w = 0) : Reads w (.rdresp (l1Of w))
  | request (opc : opcOf w = 5) (rsv : rsvOf w = 0) :
    Reads w (.request (BitVec.ofNat 8 (cbOf w)) (l1Of w) (l2Of w))
  | send (opc : opcOf w = 6) (l2 : l2Of w = 0) (rsv : rsvOf w = 0) :
    Reads w (.send (BitVec.ofNat 8 (cbOf w)) (l1Of w))
  | nbegin (opc : opcOf w = 8) (cb : cbOf w = 0) : Reads w (.nbegin (nlenOf w))
  | nnext (opc : opcOf w = 9) (z : zOf w = 0) : Reads w .nnext

/-- The decoder answers what the table says. -/
theorem decode_ok_iff {w : Word} {i : Instr} : decode w = .ok i ↔ Reads w i := by
  constructor
  · intro h
    unfold decode at h
    split at h
    case h_9 => contradiction
    all_goals
      next opc =>
      obtain ⟨hzero, rfl⟩ := legalIf_ok.1 h
      simp only [Bool.and_eq_true, beq_iff_eq] at hzero
      constructor <;> simp only [opc, hzero]
  · intro h
    cases h <;> simp [decode, legalIf, *]

/-- Settles O1: the fields of an encoded instruction are its operands, and its row's must-be-0 fields are zero. -/
theorem decodeOfEncode : Obligations.DecodeOfEncode := by
  intro i hwf
  rw [decode_ok_iff]
  have hopc := Machine.opcOf_encode i
  cases i with
  | pack cb plen =>
    have hread := Reads.pack hopc (l2Of_formatF (by decide) (by decide)) (rsvOf_formatF (by decide))
    simpa [encode, cbOf_formatF, l1Of_formatF, of_decide_eq_true hwf] using hread
  | waitrdy => exact .waitrdy hopc (by decide)
  | rdack => exact .rdack hopc (by decide)
  | rdresp rlen =>
    have hread := Reads.rdresp hopc (cbOf_formatF (by decide)) (l2Of_formatF (by decide) (by decide))
      (rsvOf_formatF (by decide))
    simpa [encode, l1Of_formatF, of_decide_eq_true hwf] using hread
  | request cb plen rlen =>
    have hread := Reads.request hopc (rsvOf_formatF (by decide))
    obtain ⟨hplen, hrlen⟩ := Bool.and_eq_true_iff.1 hwf
    simpa [encode, cbOf_formatF, l1Of_formatF, l2Of_formatF, of_decide_eq_true hplen, of_decide_eq_true hrlen]
      using hread
  | send cb plen =>
    have hread := Reads.send hopc (l2Of_formatF (by decide) (by decide)) (rsvOf_formatF (by decide))
    simpa [encode, cbOf_formatF, l1Of_formatF, of_decide_eq_true hwf] using hread
  | nbegin nlen =>
    have hread := Reads.nbegin hopc (cbOf_formatN (by decide) nlen)
    simpa [encode, nlenOf_formatN, of_decide_eq_true hwf] using hread
  | nnext => exact .nnext hopc (by decide)

/-- Settles O2: a legal word is built again from its own fields. -/
theorem encodeOfDecode : Obligations.EncodeOfDecode := by
  intro w i h
  cases decode_ok_iff.1 h with
  | pack opc l2 rsv => simpa [encode, opc, l2] using formatF_fields rsv
  | waitrdy opc z => simpa [encode, opc] using formatZ_fields z
  | rdack opc z => simpa [encode, opc] using formatZ_fields z
  | rdresp opc cb l2 rsv => simpa [encode, opc, cb, l2] using formatF_fields rsv
  | request opc rsv => simpa [encode, opc] using formatF_fields rsv
  | send opc l2 rsv => simpa [encode, opc, l2] using formatF_fields rsv
  | nbegin opc cb => simpa [encode, opc] using formatN_fields cb
  | nnext opc z => simpa [encode, opc] using formatZ_fields z

/-! ## Legal and illegal words (R115, R117) -/

/-- The row `opc` exists and the fields it marks 0 are zero in `w` (R115). -/
def rowAllows (w : Word) : Nat → Prop
  | 1 => l2Of w = 0 ∧ rsvOf w = 0
  | 2 => zOf w = 0
  | 3 => zOf w = 0
  | 4 => cbOf w = 0 ∧ l2Of w = 0 ∧ rsvOf w = 0
  | 5 => rsvOf w = 0
  | 6 => l2Of w = 0 ∧ rsvOf w = 0
  | 8 => cbOf w = 0
  | 9 => zOf w = 0
  | _ => False

/-- A word is legal exactly when its OPC has a row that allows it. -/
theorem exists_decode_iff {w : Word} : (∃ i, decode w = .ok i) ↔ rowAllows w (opcOf w) := by
  simp only [decode_ok_iff]
  constructor
  · rintro ⟨i, h⟩
    cases h <;> simp [rowAllows, *]
  · intro h
    unfold rowAllows at h
    split at h
    case h_1 opc => exact ⟨_, .pack opc h.1 h.2⟩
    case h_2 opc => exact ⟨_, .waitrdy opc h⟩
    case h_3 opc => exact ⟨_, .rdack opc h⟩
    case h_4 opc => exact ⟨_, .rdresp opc h.1 h.2.1 h.2.2⟩
    case h_5 opc => exact ⟨_, .request opc h⟩
    case h_6 opc => exact ⟨_, .send opc h.1 h.2⟩
    case h_7 opc => exact ⟨_, .nbegin opc h⟩
    case h_8 opc => exact ⟨_, .nnext opc h⟩
    case h_9 => contradiction

theorem exists_error_iff {α ε : Type} {r : Except ε α} : (∃ e, r = .error e) ↔ ¬ ∃ a, r = .ok a := by
  cases r <;> simp

/-- Settles O5: an illegal word is one no row allows, which the statement spells out OPC by OPC. -/
theorem illegalWordsAreReservedOrNonzero : Obligations.IllegalWordsAreReservedOrNonzero := by
  intro w
  rw [exists_error_iff, exists_decode_iff]
  have hlt := opcOf_lt w
  interval_cases opcOf w <;> simp [rowAllows]

/-- Settles O4: the words are read by evaluation. -/
theorem sampleWordsDecode : Obligations.SampleWordsDecode := by
  unfold Obligations.SampleWordsDecode
  decide

/-! ## The match and mask table (R116) -/

/-- A mask of the bits from `b` up and of those below `a` keeps these bits and clears the others. -/
theorem and_highLowMask {n a b : Nat} (hab : a ≤ b) (hb : b ≤ 32) (hn : n < 2 ^ 32) :
    n &&& (2 ^ b * (2 ^ (32 - b) - 1) + (2 ^ a - 1)) = 2 ^ b * (n / 2 ^ b) + n % 2 ^ a := by
  have hpow : 2 ^ a ≤ 2 ^ b := Nat.pow_le_pow_right (by decide) hab
  have hpos := Nat.two_pow_pos a
  refine Nat.eq_of_testBit_eq fun k => ?_
  rw [Nat.testBit_and, Nat.testBit_two_pow_mul_add _ (by omega),
    Nat.testBit_two_pow_mul_add _ (Nat.lt_of_lt_of_le (Nat.mod_lt _ hpos) hpow)]
  split
  · rw [Nat.testBit_two_pow_sub_one, Nat.testBit_mod_two_pow, Bool.and_comm]
  · next hk =>
    rw [Nat.testBit_two_pow_sub_one, Nat.testBit_div_two_pow, Nat.sub_add_cancel (by omega)]
    by_cases h32 : k < 32
    · rw [decide_eq_true (show k - b < 32 - b by omega), Bool.and_true]
    · have hbit : n.testBit k = false :=
        Nat.testBit_lt_two_pow (Nat.lt_of_lt_of_le hn (Nat.pow_le_pow_right (by decide) (by omega)))
      rw [hbit, Bool.false_and]

theorem accepts_iff {r : OpcodeRow} {w : Word} (a b : Nat) (hab : a ≤ b) (hb : b ≤ 32)
    (hmask : r.mask.toNat = 2 ^ b * (2 ^ (32 - b) - 1) + (2 ^ a - 1)) :
    r.accepts w = true ↔ 2 ^ b * (w.toNat / 2 ^ b) + w.toNat % 2 ^ a = r.pattern.toNat := by
  rw [OpcodeRow.accepts, beq_iff_eq, ← BitVec.toNat_inj, BitVec.toNat_and, hmask, and_highLowMask hab hb w.isLt]

/-- What a row's mask selects is its OPC and its must-be-0 fields (R115, R116). -/
theorem accepts_iff_rowAllows {r : OpcodeRow} (hr : r ∈ opcodeTable) (w : Word) :
    r.accepts w = true ↔ opcOf w = opcOf r.pattern ∧ rowAllows w (opcOf r.pattern) := by
  have hw := toNat_eq_fields w
  have hz := zOf_eq_fields w
  have hopc := opcOf_lt w
  have hcb := cbOf_lt w
  have hl1 := l1Of_lt w
  have hl2 := l2Of_lt w
  have hlt := w.isLt
  simp only [opcodeTable, List.mem_cons, List.not_mem_nil, or_false] at hr
  rcases hr with rfl | rfl | rfl | rfl | rfl | rfl | rfl | rfl
  · rw [accepts_iff 4 21 (by decide) (by decide) (by decide)]
    change _ = 1 ↔ opcOf w = 1 ∧ l2Of w = 0 ∧ rsvOf w = 0
    omega
  · rw [accepts_iff 32 32 (by decide) (by decide) (by decide)]
    change _ = 2 ↔ opcOf w = 2 ∧ zOf w = 0
    omega
  · rw [accepts_iff 32 32 (by decide) (by decide) (by decide)]
    change _ = 3 ↔ opcOf w = 3 ∧ zOf w = 0
    omega
  · rw [accepts_iff 12 21 (by decide) (by decide) (by decide)]
    change _ = 4 ↔ opcOf w = 4 ∧ cbOf w = 0 ∧ l2Of w = 0 ∧ rsvOf w = 0
    omega
  · rw [accepts_iff 4 30 (by decide) (by decide) (by decide)]
    change _ = 5 ↔ opcOf w = 5 ∧ rsvOf w = 0
    omega
  · rw [accepts_iff 4 21 (by decide) (by decide) (by decide)]
    change _ = 6 ↔ opcOf w = 6 ∧ l2Of w = 0 ∧ rsvOf w = 0
    omega
  · rw [accepts_iff 12 32 (by decide) (by decide) (by decide)]
    change _ = 8 ↔ opcOf w = 8 ∧ cbOf w = 0
    omega
  · rw [accepts_iff 32 32 (by decide) (by decide) (by decide)]
    change _ = 9 ↔ opcOf w = 9 ∧ zOf w = 0
    omega

/-- The mnemonic of a row names its opcode. -/
theorem mnemonic_eq_iff {r : OpcodeRow} (hr : r ∈ opcodeTable) (i : Instr) :
    i.mnemonic = r.mnemonic ↔ Laws.EncodeOpcode.rowOpcode i = opcOf r.pattern := by
  have table : ∀ r ∈ opcodeTable, ∀ q ∈ opcodeTable, q.mnemonic = r.mnemonic ↔ opcOf q.pattern = opcOf r.pattern := by
    decide
  have hrow : ∃ q ∈ opcodeTable, q.mnemonic = i.mnemonic ∧ opcOf q.pattern = Laws.EncodeOpcode.rowOpcode i := by
    cases i <;> simp only [Instr.mnemonic, Laws.EncodeOpcode.rowOpcode] <;> decide
  obtain ⟨q, hq, hname, hopc⟩ := hrow
  rw [← hname, ← hopc]
  exact table r hr q hq

/-- Settles O3: both sides say that OPC is the row's and the row allows the word. -/
theorem decodeAgreesWithMatchAndMask : Obligations.DecodeAgreesWithMatchAndMask := by
  intro r hr w
  have hopc : ∀ i, decode w = .ok i → (i.mnemonic = r.mnemonic ↔ opcOf w = opcOf r.pattern) := fun i h => by
    rw [mnemonic_eq_iff hr, ← Machine.opcOf_encode, encodeOfDecode w i h]
  rw [accepts_iff_rowAllows hr]
  constructor
  · rintro ⟨hrow, hallows⟩
    obtain ⟨i, h⟩ := exists_decode_iff.2 (hrow ▸ hallows)
    exact ⟨i, h, (hopc i h).2 hrow⟩
  · rintro ⟨i, h, hname⟩
    have hrow := (hopc i h).1 hname
    exact ⟨hrow, hrow ▸ exists_decode_iff.1 ⟨i, h⟩⟩

end Sys2Proof
end

section
/-! The pseudo-instructions (30_encoding.md R120, R121): a command with a SEND phase ends as the sequence of the
commands of its phases does, of which HANDSHAKE and NOTIFY are the cases REQUEST (O27, O28) and SEND (O29). A command in
progress is compared, after every completion, with the single command of its phase. -/

namespace Sys2Proof.Machine

/-! ## The sequence of a command's phases -/

/-- The command that consists of the phase `p` of `i` alone (42_handshake.md R193). IDLE is no phase of a command. -/
def phaseCommand (i : Instr) : Phase → Instr
  | .idle => .nnext
  | .send => .pack (cmdbOf i) (plenOf i)
  | .wait1 => .waitrdy
  | .ack => .rdack
  | .wait2 => .waitrdy
  | .recv => .rdresp (rlenOf i)

theorem handshake_eq_phases (cb : Byte) (plen rlen : Nat) :
    handshake cb plen rlen = (phasesOf (.request cb plen rlen)).map (phaseCommand (.request cb plen rlen)) := rfl

theorem notify_eq_phases (cb : Byte) (plen : Nat) :
    notify cb plen = (phasesOf (.send cb plen)).map (phaseCommand (.send cb plen)) := rfl

theorem nextPhase_phaseCommand (i : Instr) (p q : Phase) : nextPhase (phaseCommand i p) q = none := by
  cases p <;> rfl

theorem successor_append {p : Phase} (before rest : List Phase) (h : p ∉ before) :
    successor p (before ++ p :: rest) = rest.head? := by
  induction before with
  | nil => cases rest <;> simp [successor]
  | cons q before ih =>
    obtain ⟨hq, hbefore⟩ := not_or.1 (mt List.mem_cons.2 h)
    rw [← ih hbefore]
    cases before <;> simp [successor, Ne.symm hq]

theorem phasesOf_nodup (i : Instr) : (phasesOf i).Nodup := by
  cases i <;> simp [phasesOf]

/-- The phase after `p` is the first of those that `p` has before it in the row (R193). -/
theorem nextPhase_of_suffix {i : Instr} {p : Phase} {ps : List Phase} (h : p :: ps <:+ phasesOf i) :
    nextPhase i p = ps.head? := by
  obtain ⟨before, hrow⟩ := h
  have hnodup := phasesOf_nodup i
  rw [← hrow] at hnodup
  rw [nextPhase, ← hrow]
  exact successor_append before ps fun hp => List.disjoint_of_nodup_append hnodup hp List.mem_cons_self

/-! ## Runs of a script -/

/-- What a sequence does when its first command's run has come to `r`. -/
def runOn (rest : List Instr) (r : State × List Completion) : Result (State × List Completion) :=
  if r.1.status.busy = true ∨ r.1.status.err ≠ .none then .next r else runSequence rest r.2 r.1

theorem runSequence_cons (i : Instr) (rest : List Instr) (script : List Completion) (s : State) :
    runSequence (i :: rest) script s = andThen (exec i s) fun t => andThen (serve script t) (runOn rest) := rfl

theorem runOn_nil (r : State × List Completion) : runOn [] r = .next r := by
  unfold runOn
  split <;> rfl

theorem runSequence_single (i : Instr) (script : List Completion) (s : State) :
    runSequence [i] script s = andThen (exec i s) (serve script) := by
  rw [runSequence_cons]
  congr 1
  funext t
  cases serve script t with
  | next r => exact runOn_nil r
  | fault f => rfl
  | refused e => rfl

@[simp] theorem serve_nil (s : State) : serve [] s = .next (s, []) := rfl

theorem serve_of_idle {s : State} (h : s.status.busy = false) (script : List Completion) :
    serve script s = .next (s, script) := by
  cases script with
  | nil => rfl
  | cons c rest => simp [serve, h]

theorem serve_of_busy {s : State} (h : s.status.busy = true) (c : Completion) (rest : List Completion) :
    serve (c :: rest) s = andThen (complete c s) (serve rest) := by
  simp [serve, h]

theorem complete_of_pending {s : State} {call : Call} {l : Latch} (hc : s.pending = some call) (hl : s.latch = some l)
    (c : Completion) : complete c s = completeCall call c l.instr (takeCall s) := by
  simp only [complete, hc, hl]

/-! ## The same block under another command -/

/-- The phase of the single command that a phase of a longer command is compared with: WAITRDY waits in WAIT1. -/
def alonePhase (p : Phase) : Phase := if p = .wait2 then .wait1 else p

/-- `s` as it is when `j` has been accepted last, and is in progress with a payload or, with none, has ended. -/
def recast (j : Instr) (payload : Option (List Byte)) (s : State) : State :=
  { s with
    cmd := encode j
    status := { s.status with phase := alonePhase s.status.phase, lastop := (encode j).setWidth 4 }
    latch := payload.map fun p => { instr := j, payload := p } }

section
variable (j : Instr) (l : Option (List Byte)) (s : State)

@[simp] theorem recast_cfg : (recast j l s).cfg = s.cfg := rfl
@[simp] theorem recast_stg : (recast j l s).stg = s.stg := rfl
@[simp] theorem recast_busy : (recast j l s).status.busy = s.status.busy := rfl
@[simp] theorem recast_phase : (recast j l s).status.phase = alonePhase s.status.phase := rfl

end

theorem alonePhase_eq_ack {p : Phase} : alonePhase p = .ack ↔ p = .ack := by
  cases p <;> decide

/-! ## One completion -/

/-- The command `i` is in progress and no error has occurred: what holds from its acceptance to its end, but for the
registers that the end of its last phase sets. -/
structure State.Performing (i : Instr) (s : State) : Prop where
  busy : s.status.busy = true
  done : s.status.done = false
  err : s.status.err = .none
  terrinfo : s.terrinfo = 0
  result : s.result = { rcmd := 0, rplen := 0, rvalid := false }
  latch : ∃ payload, s.latch = some { instr := i, payload := payload }
  room : .recv ∈ phasesOf i → rlenOf i + 9 ≤ s.cfg.bufCap

/-- It awaits the completion of the call of its phase `p`. -/
structure State.Awaiting (i : Instr) (p : Phase) (s : State) : Prop extends s.Performing i where
  phase : s.status.phase = p
  call : ∃ c, s.pending = some c ∧ ∀ n, c = .recv n → p = .ack ∨ p = .recv

/-- What a completion answers under the command `j` alone and under `i`, from the same state: the port's contract is
broken, the command ends with an error, or its phase is over, and then only what follows depends on the command. -/
inductive AnswersAlike (i j : Instr) (l : Option (List Byte)) (s : State) : Result State → Result State → Prop where
  | refused (r : Refusal) : AnswersAlike i j l s (.refused r) (.refused r)
  | failed (e : ErrCode) (t : State) (herr : e ≠ .none) (hstatus : t.status = s.status) :
    AnswersAlike i j l s (.next (recast j none (raiseErr e t))) (.next (raiseErr e t))
  | passed (t : State) (hstatus : t.status = s.status)
      (hkeeps : s.status.phase ≠ .recv → s.Performing i → t.Performing i) :
    AnswersAlike i j l s (.next (advance j (recast j l t))) (.next (advance i t))

section
variable (i j : Instr) (l : Option (List Byte)) {s : State}

theorem bytesReceived_alike (hphase : s.status.phase = .ack ∨ s.status.phase = .recv) (b : List Byte) :
    AnswersAlike i j l s (.next (bytesReceived b j (recast j l s))) (.next (bytesReceived b i s)) := by
  simp only [bytesReceived, recast_phase, alonePhase_eq_ack]
  rcases hphase with hp | hp
  · rw [if_pos hp, if_pos hp, ackReceived, ackReceived, recast_cfg]
    split
    · exact .failed .notAcknowledged (setAckcap b s) (by decide) rfl
    · exact .passed (setAckcap b s) rfl fun _ h => { h with }
  · have hne : s.status.phase ≠ .ack := by simp [hp]
    rw [if_neg hne, if_neg hne, frameReceived, frameReceived]
    cases hv : validateFrame b with
    | error e =>
      refine .failed e (writeScr b s) ?_ rfl
      rintro rfl
      exact absurd (errPhase_of_validateFrame_error hv).1 (by decide)
    | ok r => exact .passed (setResult r.1 r.2 (writeScr b s)) rfl fun h => absurd hp h

theorem receiveFailed_alike (n : Nat) (info : Word) :
    AnswersAlike i j l s (.next (receiveFailed n info (recast j l s))) (.next (receiveFailed n info s)) := by
  simp only [receiveFailed, recast_phase, alonePhase_eq_ack]
  split
  · exact .failed .transport { countDraws n (setAckcap (drawnBytes s.draws n) s) with terrinfo := info } (by decide) rfl
  · exact .failed .transport { countDraws n (writeScr (drawnBytes s.draws n) s) with terrinfo := info } (by decide) rfl

theorem completeCall_alike {call : Call}
    (hcall : ∀ n, call = .recv n → s.status.phase = .ack ∨ s.status.phase = .recv) (c : Completion) :
    AnswersAlike i j l s (completeCall call c j (recast j l s)) (completeCall call c i s) := by
  cases call with
  | send bytes =>
    cases c with
    | ok => exact .passed s rfl fun _ => id
    | okBytes b => exact .refused _
    | fail info => exact .failed .transport { s with terrinfo := info } (by decide) rfl
  | wait =>
    cases c with
    | ok => exact .passed s rfl fun _ => id
    | okBytes b => exact .refused _
    | fail info => exact .failed .transport { s with terrinfo := info } (by decide) rfl
  | recv n =>
    cases c with
    | ok => exact .refused _
    | okBytes b =>
      simp only [completeCall]
      split
      · exact bytesReceived_alike i j l (hcall n rfl) b
      · exact .refused _
    | fail info => exact receiveFailed_alike i j l n info

end

theorem State.Awaiting.complete_alike {i j : Instr} {p : Phase} {s : State} (h : s.Awaiting i p)
    (payload : List Byte) (c : Completion) :
    AnswersAlike i j (some payload) (takeCall s) (complete c (recast j (some payload) s)) (complete c s) := by
  obtain ⟨call, hpending, hrecv⟩ := h.call
  obtain ⟨_, hlatch⟩ := h.latch
  rw [complete_of_pending hpending hlatch, complete_of_pending (s := recast j (some payload) s) hpending rfl]
  exact completeCall_alike i j _ (fun n hn => h.phase ▸ hrecv n hn) c

/-! ## From one phase to the next -/

namespace State.Performing

variable {i j k : Instr} {q : Phase} {s : State}

/-- Accepting the command of the next phase makes up for what the end of the phase before has changed. -/
theorem accept_finish (h : s.Performing i) (hj : usesTransport j = true) :
    accept j (recast k none (finish s)) = recast j (some []) (setPhase .idle s) := by
  simp only [accept, acceptWord, acceptStatus, finish, finishStatus, recast, setPhase, hj, h.busy, h.done, h.err,
    h.terrinfo, h.result, ite_self]
  rfl

/-- The command of the next phase, issued when the one before has finished, enters it as `i` does (R193). -/
theorem exec_phaseCommand (h : s.Performing i) (hq : q ∈ phasesOf i) (hsend : q ≠ .send) :
    exec (phaseCommand i q) (recast k none (finish s)) =
      .next (recast (phaseCommand i q) (some []) (Machine.enterPhase q i s)) := by
  have hidle : (recast k none (finish s)).status.busy = false := rfl
  cases q with
  | idle => exact absurd hq (idle_notMem_phasesOf i)
  | send => exact absurd rfl hsend
  | wait1 | ack | wait2 =>
    refine (whenIdle_of_idle hidle).trans ?_
    rw [h.accept_finish rfl]
    rfl
  | recv =>
    refine (whenIdle_of_idle hidle).trans ((if_neg (Nat.not_lt.2 (h.room hq))).trans ?_)
    rw [h.accept_finish rfl]
    rfl

theorem enterPhase (h : s.Performing i) (hq : q ∈ phasesOf i) (hsend : q ≠ .send) :
    (enterPhase q i s).Awaiting i q := by
  obtain ⟨c, henter, hfits⟩ := enterPhase_issue (ne_idle_of_mem_phasesOf hq) hsend i s
  rw [henter]
  refine { h with phase := rfl, call := ⟨c, rfl, ?_⟩ }
  rintro n rfl
  exact (callFits_recv (hfits s { instr := i, payload := [] } rfl)).imp And.left And.left

end State.Performing

/-! ## Whole runs -/

/-- How the run of the sequence compares with that of `i`: both stop for the same reason, both are left unfinished, or
both come to the same end but for CMD, LASTOP and WAIT1 in the place of WAIT2, with the same script left. -/
inductive EndsAlike (i : Instr) : Result (State × List Completion) → Result (State × List Completion) → Prop where
  | fault (f : Fault) : EndsAlike i (.fault f) (.fault f)
  | refused (r : Refusal) : EndsAlike i (.refused r) (.refused r)
  | unfinished {t t' : State} {r r' : List Completion} (h : t.status.busy = true) (h' : t'.status.busy = true) :
    EndsAlike i (.next (t, r)) (.next (t', r'))
  | ended {t : State} (j : Instr) (r : List Completion) (hbusy : t.status.busy = false) (hlatch : t.latch = none)
      (hphase : t.status.phase = .idle ∨ t.status.phase ∈ phasesOf i) :
    EndsAlike i (.next (recast j none t, r)) (.next (t, r))

/-- A command ended by an error ends its sequence (R120). -/
theorem raised_endsAlike {i : Instr} {e : ErrCode} {t : State} (herr : e ≠ .none) (hphase : t.status.phase ∈ phasesOf i)
    (j : Instr) (rest : List Instr) (script : List Completion) :
    EndsAlike i (andThen (serve script (recast j none (raiseErr e t))) (runOn rest)) (serve script (raiseErr e t)) := by
  rw [serve_of_idle (s := recast j none (raiseErr e t)) rfl, serve_of_idle (s := raiseErr e t) rfl, andThen_of_next,
    runOn, if_pos (.inr herr)]
  exact .ended j script rfl rfl (.inr hphase)

/-- After a command that has finished without error the sequence goes on (R120). -/
theorem serve_finished (j : Instr) (t : State) (rest : List Instr) (script : List Completion) :
    andThen (serve script (recast j none (finish t))) (runOn rest) =
      runSequence rest script (recast j none (finish t)) := by
  rw [serve_of_idle (s := recast j none (finish t)) rfl, andThen_of_next, runOn, if_neg]
  rintro (h | h)
  · contradiction
  · exact h rfl

theorem advance_of_nextPhase {i : Instr} {p : Phase} {s : State} (h : nextPhase i s.status.phase = some p) :
    advance i s = enterPhase p i s := by
  rw [advance, h]

theorem advance_of_last {i : Instr} {s : State} (h : nextPhase i s.status.phase = none) : advance i s = finish s := by
  rw [advance, h]

theorem advance_phaseCommand (i : Instr) (p : Phase) (l : Option (List Byte)) (s : State) :
    advance (phaseCommand i p) (recast (phaseCommand i p) l s) = recast (phaseCommand i p) none (finish s) := by
  rw [advance_of_last (nextPhase_phaseCommand i p _)]
  rfl

/-- From a call of phase `p` on, `i` ends as the command of `p` alone followed by the commands of the phases after it:
each completion either ends both, or ends the phase, and the next command enters the next phase. -/
theorem State.Awaiting.serve_endsAlike {i : Instr} (script : List Completion) :
    ∀ {p : Phase} {ps : List Phase} {s : State}, s.Awaiting i p → p :: ps <:+ phasesOf i → ∀ payload : List Byte,
      EndsAlike i
        (andThen (serve script (recast (phaseCommand i p) (some payload) s)) (runOn (ps.map (phaseCommand i))))
        (serve script s) := by
  induction script with
  | nil =>
    intro p ps s h hrow payload
    rw [serve_nil, serve_nil, andThen_of_next, runOn, if_pos (.inl h.busy)]
    exact .unfinished h.busy h.busy
  | cons c rest ih =>
    intro p ps s h hrow payload
    have halike := h.complete_alike (j := phaseCommand i p) payload c
    rw [serve_of_busy h.busy, serve_of_busy (s := recast _ _ s) h.busy]
    generalize complete c (recast (phaseCommand i p) _ s) = alone at halike ⊢
    generalize complete c s = whole at halike ⊢
    cases halike with
    | refused r => exact .refused r
    | failed e t herr hstatus =>
      refine raised_endsAlike herr ?_ _ _ rest
      rw [hstatus, takeCall_status, h.phase]
      exact hrow.subset List.mem_cons_self
    | passed t hstatus hkeeps =>
      have hphase : t.status.phase = p := by rw [hstatus, takeCall_status, h.phase]
      have hnext : nextPhase i t.status.phase = ps.head? := by rw [hphase, nextPhase_of_suffix hrow]
      rw [advance_phaseCommand, andThen_of_next, andThen_of_next, serve_finished]
      cases ps with
      | nil =>
        rw [advance_of_last hnext, serve_of_idle (s := finish t) rfl]
        exact .ended _ rest rfl rfl (.inl rfl)
      | cons q qs =>
        obtain ⟨hq, hsend⟩ := nextPhase_some hnext
        have hrecv : (takeCall s).status.phase ≠ .recv := fun hrecv => by
          rw [hstatus, hrecv, nextPhase_recv] at hnext
          contradiction
        have ht : t.Performing i := hkeeps hrecv { h.toPerforming with }
        rw [advance_of_nextPhase hnext, List.map_cons, runSequence_cons, ht.exec_phaseCommand hq hsend, andThen_of_next]
        exact ih (ht.enterPhase hq hsend) ((List.suffix_cons p _).trans hrow) []

/-! ## The SEND phase, which comes first -/

/-- A command with a SEND phase is accepted as PACK is (60_exceptions.md R305). -/
theorem accept_pack {i : Instr} (hsend : .send ∈ phasesOf i) (s : State) :
    accept (phaseCommand i .send) s = recast (phaseCommand i .send) (some []) (accept i s) := by
  have huses := usesTransport_of_phase hsend
  have hclears := clearsResult_of_phase hsend (.inl rfl)
  simp only [accept, acceptWord, recast, huses, hclears]
  rfl

theorem exec_of_send {i : Instr} {s : State} (hb : s.status.busy = false) (hsend : .send ∈ phasesOf i)
    (hroom : .recv ∈ phasesOf i → rlenOf i + 9 ≤ s.cfg.bufCap) :
    exec i s = phaseSend (cmdbOf i) (plenOf i) (accept i s) := by
  cases i with
  | pack cb plen => exact exec_sending (rlen := 0) hb (by simp [cmdbOf, plenOf]) nofun
  | send cb plen => exact exec_sending (rlen := 0) hb (by simp [cmdbOf, plenOf]) nofun
  | request cb plen rlen =>
    exact exec_sending (rlen := rlen) hb (by simp [cmdbOf, plenOf]) fun _ => hroom (by simp [phasesOf])
  | waitrdy | rdack | rdresp _ | nbegin _ | nnext => simp [phasesOf] at hsend

/-- The command that has built its frame awaits the completion of the send (41_frame_codec.md R143). -/
theorem sent_awaiting {i : Instr} {s : State} (hsend : .send ∈ phasesOf i)
    (hroom : .recv ∈ phasesOf i → rlenOf i + 9 ≤ s.cfg.bufCap) (frame payload : List Byte) :
    (issue (.send frame) (writeScr frame (latchPayload payload (setPhase .send (accept i s))))).Awaiting i .send where
  busy := by simp [acceptStatus, usesTransport_of_phase hsend]
  done := rfl
  err := rfl
  terrinfo := by simp [usesTransport_of_phase hsend]
  result := by simp [clearsResult_of_phase hsend (.inl rfl)]
  latch := ⟨payload, rfl⟩
  room := hroom
  phase := rfl
  call := ⟨_, rfl, nofun⟩

/-- A command with a SEND phase ends as the sequence of the commands of its phases (R120, R121). -/
theorem phaseCommands_endsAlike {i : Instr} {ps : List Phase} (hrow : phasesOf i = .send :: ps) {s : State}
    (hs : s.idle) (hroom : .recv ∈ phasesOf i → rlenOf i + 9 ≤ s.cfg.bufCap) (script : List Completion) :
    EndsAlike i (runSequence ((phasesOf i).map (phaseCommand i)) script s) (runSequence [i] script s) := by
  have hsend : .send ∈ phasesOf i := by simp [hrow]
  have hpack : exec (phaseCommand i .send) s = phaseSend (cmdbOf i) (plenOf i) (accept (phaseCommand i .send) s) :=
    whenIdle_of_idle hs.1
  rw [hrow, List.map_cons, runSequence_cons, runSequence_single, hpack, accept_pack hsend,
    exec_of_send hs.1 hsend hroom, phaseSend, phaseSend, recast_cfg]
  split
  · exact raised_endsAlike (e := .tooMuchData) (t := setPhase .send (accept i s)) (by decide) hsend
      (phaseCommand i .send) (ps.map (phaseCommand i)) script
  · rw [recast_stg]
    cases readBytes (accept i s).stg 0 (plenOf i) with
    | none => exact .fault _
    | some payload =>
      have hrun := (sent_awaiting hsend hroom (buildFrame (cmdbOf i) payload) payload).serve_endsAlike script
        (by rw [hrow]) payload
      exact hrun

/-! ## HANDSHAKE and NOTIFY -/

namespace EndsAlike

variable {i : Instr}

/-- Runs that compare stop for the same reasons and come to an end on the same scripts. -/
theorem stops_iff {alone whole : Result (State × List Completion)} (h : EndsAlike i alone whole) :
    (∀ f, alone = .fault f ↔ whole = .fault f) ∧ (∀ e, alone = .refused e ↔ whole = .refused e) ∧
      ((∃ t r, alone = .next (t, r) ∧ t.status.busy = false) ↔
        ∃ t r, whole = .next (t, r) ∧ t.status.busy = false) := by
  cases h with
  | fault f => simp
  | refused r => simp
  | unfinished h h' => simp [h, h']
  | ended j r hbusy hlatch hphase => simp [hbusy]

/-- Runs that come to an end leave the same script and the same state but for CMD, LASTOP and PHASE. -/
theorem same_end {t t' : State} {r r' : List Completion} (h : EndsAlike i (.next (t, r)) (.next (t', r')))
    (hbusy : t.status.busy = false) :
    r = r' ∧ t'.sameButCmdStatus t ∧ t.status.done = t'.status.done ∧ t.status.err = t'.status.err ∧
      t.status.phase = alonePhase t'.status.phase ∧ (t'.status.phase = .idle ∨ t'.status.phase ∈ phasesOf i) := by
  cases h with
  | unfinished h h' => simp [hbusy] at h
  | ended j r hbusy hlatch hphase =>
    have hown : t'.sameButCmdStatus (recast j none t') :=
      ⟨⟨rfl, rfl, rfl, rfl, rfl, rfl, rfl, rfl, rfl, rfl⟩, ⟨rfl, rfl, rfl, rfl, rfl, rfl⟩, ⟨rfl, rfl, rfl⟩, rfl,
        hlatch.symm, rfl⟩
    exact ⟨rfl, hown, rfl, rfl, rfl, hphase⟩

end EndsAlike

theorem handshake_endsAlike {cb : Byte} {plen rlen : Nat} {s : State} (hs : s.idle) (hroom : rlen + 9 ≤ s.cfg.bufCap)
    (script : List Completion) :
    EndsAlike (.request cb plen rlen) (runSequence (handshake cb plen rlen) script s)
      (runSequence [.request cb plen rlen] script s) := by
  rw [handshake_eq_phases]
  exact phaseCommands_endsAlike (i := .request cb plen rlen) rfl hs (fun _ => hroom) script

theorem notify_endsAlike {cb : Byte} {plen : Nat} {s : State} (hs : s.idle) (script : List Completion) :
    EndsAlike (.send cb plen) (runSequence (notify cb plen) script s) (runSequence [.send cb plen] script s) := by
  rw [notify_eq_phases]
  exact phaseCommands_endsAlike rfl hs (by simp [phasesOf]) script

/-- Settles O27: a REQUEST that has come to an end was not refused, so its response fits, and the two runs compare. -/
theorem handshakeEndsAsRequest : Obligations.HandshakeEndsAsRequest := by
  intro cb plen rlen script r r' s t t' hs h h' hbusy _
  have hroom : rlen + 9 ≤ s.cfg.bufCap := by
    rw [runSequence_single] at h'
    obtain ⟨u, hexec, -⟩ := andThen_next.1 h'
    exact (exec_next hexec).2.1 (by simp [phasesOf])
  have hends := handshake_endsAlike (cb := cb) (plen := plen) hs hroom script
  rw [h, h'] at hends
  obtain ⟨hscript, hown, hdone, herr, hphase, -⟩ := hends.same_end hbusy
  exact ⟨hscript, hown, hdone, herr, hphase⟩

/-- Settles O28: runs that compare stop alike. -/
theorem handshakeEndsWhenRequestEnds : Obligations.HandshakeEndsWhenRequestEnds :=
  fun _ _ _ script _ hs hroom => (handshake_endsAlike hs hroom script).stops_iff

/-- Settles O29: NOTIFY and SEND compare as HANDSHAKE and REQUEST do, and SEND has no second wait. -/
theorem notifyEndsAsSend : Obligations.NotifyEndsAsSend := by
  intro cb plen script s hs
  have hends := notify_endsAlike (cb := cb) (plen := plen) hs script
  refine ⟨?_, hends.stops_iff⟩
  intro t r t' r' h h' hbusy _
  rw [h, h'] at hends
  obtain ⟨hscript, hown, hdone, herr, hphase, hrow⟩ := hends.same_end hbusy
  have hwait : t'.status.phase ≠ .wait2 := by
    intro hp
    simp [hp, phasesOf] at hrow
  exact ⟨hscript, hown, hdone, herr, hphase.trans (if_neg hwait)⟩

end Sys2Proof.Machine
end

section
/-! The bytes of a frame (41_frame_codec.md R140, R160, R168), the sums and slices its checks speak of, and the frames
PACK, SEND and REQUEST build (O9). -/

namespace Sys2Proof.Machine

/-! ## Bytes, sums and slices (00_scope.md R12, R13) -/

@[simp] theorem add_neg8 (x : Byte) : x + neg8 x = 0 := by
  rw [neg8_eq_neg]; exact add_neg_cancel x

theorem getElem?_eq_some_iff_at8 {b : List Byte} {k : Nat} (h : k < b.length) (v : Byte) :
    b[k]? = some v ↔ at8 b k = v := by
  rw [getElem?_eq_at8 h, Option.some.injEq]

theorem slice_middle (x y z : List Byte) : slice (x ++ y ++ z) x.length (x.length + y.length) = y := by
  simp [slice]

theorem slice_length {b : List Byte} {a n : Nat} (h : n ≤ b.length) : (slice b a n).length = n - a := by
  simp [slice]; omega

theorem toNat_sum8 (s : List Byte) : (sum8 s).toNat = (s.map BitVec.toNat).sum % 256 := by
  induction s with
  | nil => rfl
  | cons b rest ih => simp [BitVec.toNat_add, ih]

/-- A sum of bytes is 0 mod 256 exactly when the sum of the numbers is. -/
theorem sum8_eq_zero_iff (s : List Byte) : sum8 s = 0 ↔ (s.map BitVec.toNat).sum % 256 = 0 := by
  rw [← toNat_sum8, ← BitVec.toNat_inj]; rfl

theorem add_eq_zero_iff_toNat (x y : Byte) : x + y = 0 ↔ (x.toNat + y.toNat) % 256 = 0 := by
  rw [← BitVec.toNat_inj, BitVec.toNat_add]; rfl

/-! ## Frames of either direction -/

/-- The LEN byte of a payload: direction byte, command and payload, mod 256 (R140). -/
def lenByte (p : List Byte) : Byte := BitVec.ofNat 8 (2 + p.length)

/-- The bytes DCS covers, with DCS: direction, command and payload (R140, R165). -/
def checkedBytes (tfi c : Byte) (p : List Byte) : List Byte := tfi :: c :: p ++ [neg8 (sum8 (tfi :: c :: p))]

/-- The frame of a direction byte, a command and a payload, with the bytes `x` after it (R140, R168). -/
def frameOf (tfi c : Byte) (p x : List Byte) : List Byte :=
  [0x00, 0x00, 0xFF, lenByte p, neg8 (lenByte p)] ++ checkedBytes tfi c p ++ 0x00 :: x

theorem lenByte_toNat {p : List Byte} (h : p.length ≤ 253) : (lenByte p).toNat = 2 + p.length :=
  Nat.mod_eq_of_lt (by omega)

section
variable (tfi c : Byte) (p x : List Byte)

/-- Both outbound and inbound frames are written out in this form in the rules. -/
theorem frameOf_eq : frameOf tfi c p x =
    [0x00, 0x00, 0xFF, lenByte p, neg8 (lenByte p), tfi, c] ++ p ++ [neg8 (sum8 (tfi :: c :: p)), 0x00] ++ x := by
  simp [frameOf, checkedBytes]

theorem buildFrame_eq_frameOf : buildFrame c p = frameOf tfiOut c p [] := by
  rw [frameOf_eq, List.append_nil]; rfl

theorem checkedBytes_length : (checkedBytes tfi c p).length = 3 + p.length := by
  simp [checkedBytes]; omega

theorem sum8_checkedBytes : sum8 (checkedBytes tfi c p) = 0 := by
  rw [checkedBytes, sum8_append, sum8_cons (neg8 _), sum8_nil, add_zero, add_neg8]

theorem frameOf_length : (frameOf tfi c p x).length = 9 + p.length + x.length := by
  simp [frameOf, checkedBytes_length]; omega

theorem frameOf_payload {k : Nat} (hk : k < p.length) : (frameOf tfi c p x)[7 + k]? = p[k]? := by
  rw [frameOf_eq, List.append_assoc, List.append_assoc, List.getElem?_append_right (by simp),
    List.getElem?_append_left (by simpa using hk)]
  simp

theorem frameOf_dcs : (frameOf tfi c p x)[7 + p.length]? = some (neg8 (sum8 (tfi :: c :: p))) := by
  rw [frameOf_eq, List.append_assoc, List.getElem?_append_right (by simp; omega)]
  simp [Nat.add_comm 7]

theorem frameOf_postamble : (frameOf tfi c p x)[8 + p.length]? = some 0x00 := by
  rw [frameOf_eq, List.append_assoc, List.getElem?_append_right (by simp; omega)]
  simp [show 8 + p.length - (p.length + 7) = 1 by omega]

theorem slice_frameOf_checked : slice (frameOf tfi c p x) 5 (8 + p.length) = checkedBytes tfi c p := by
  have h := slice_middle [0x00, 0x00, 0xFF, lenByte p, neg8 (lenByte p)] (checkedBytes tfi c p) (0x00 :: x)
  rwa [checkedBytes_length, ← Nat.add_assoc] at h

theorem slice_frameOf_payload : slice (frameOf tfi c p x) 7 (7 + p.length) = p := by
  rw [frameOf_eq, List.append_assoc]
  exact slice_middle [0x00, 0x00, 0xFF, lenByte p, neg8 (lenByte p), tfi, c] p _

end

/-- Settles O9: the outbound frame is the frame of direction 0xD4 with nothing after it. -/
theorem outboundFrameLayout : Obligations.OutboundFrameLayout := by
  intro c p hp
  rw [buildFrame_eq_frameOf]
  exact ⟨frameOf_length .., rfl, rfl, rfl, ⟨lenByte p, lenByte_toNat hp, rfl, rfl⟩, rfl, rfl,
    fun k hk => frameOf_payload _ _ _ _ hk, frameOf_dcs .., frameOf_postamble ..⟩

end Sys2Proof.Machine
end

section
/-! PACK, SEND and REQUEST at acceptance (41_frame_codec.md R141 to R144; O10, O11, O12), and the commands the block's
memories are too small for (R161, 44_ndef_parser.md R257; O14). -/

namespace Sys2Proof.Machine

/-! ## The frame offered -/

theorem phaseSend_of_written {cb : Byte} {plen : Nat} {p : List Byte} {s : State} (hfit : plen ≤ s.cfg.bufCap - 10)
    (hp : readBytes s.stg 0 plen = some p) : phaseSend cb plen s =
      .next (issue (.send (buildFrame cb p)) (writeScr (buildFrame cb p) (latchPayload p (setPhase .send s)))) :=
  phaseSend_next.2 (.inr ⟨hfit, p, hp, rfl⟩)

theorem phaseSend_of_tooMuch {cb : Byte} {plen : Nat} {s : State} (h : s.cfg.bufCap - 10 < plen) :
    phaseSend cb plen s = .next (raiseErr .tooMuchData (setPhase .send s)) :=
  phaseSend_next.2 (.inl ⟨h, rfl⟩)

theorem send_mem_phasesOf {cb : Byte} {plen rlen : Nat} {i : Instr}
    (hi : i ∈ [Instr.pack cb plen, .send cb plen, .request cb plen rlen]) : .send ∈ phasesOf i := by
  simp only [List.mem_cons, List.not_mem_nil, or_false] at hi
  rcases hi with rfl | rfl | rfl <;> simp [phasesOf]

/-- What acceptance leaves of a command with a SEND phase, in full (60_exceptions.md R305). -/
theorem accept_of_send {i : Instr} (hsend : .send ∈ phasesOf i) (s : State) : accept i s = { s with
    cmd := encode i
    status := { busy := true, done := false, err := .none, phase := .idle, lastop := (encode i).setWidth 4 }
    result := { rcmd := 0, rplen := 0, rvalid := false }
    terrinfo := 0
    latch := some { instr := i, payload := [] } } := by
  simp only [accept, acceptWord, acceptStatus, usesTransport_of_phase hsend, clearsResult_of_phase hsend (.inl rfl)]
  rfl

/-- Settles O10: acceptance, and PhaseSend with the payload at hand. -/
theorem sendingCommandsOfferTheFrame : Obligations.SendingCommandsOfferTheFrame := by
  intro cb plen rlen p s i hidle hi hroom hfit hp
  rw [exec_sending hidle.1 hi hroom, phaseSend_of_written (s := accept i s) hfit hp,
    accept_of_send (send_mem_phasesOf hi)]
  rfl

/-- Settles O12: acceptance, and PhaseSend stopped by its first check. -/
theorem tooMuchDataSendsNothing : Obligations.TooMuchDataSendsNothing := by
  intro cb plen rlen s i hidle hi hroom hlong
  obtain ⟨hb, -, hlatch⟩ := hidle
  rw [exec_sending hb hi hroom, phaseSend_of_tooMuch (s := accept i s) hlong,
    accept_of_send (send_mem_phasesOf hi), hlatch]
  rfl

/-- A sending command that answers is PhaseSend after acceptance. -/
theorem exec_sending_next {cb : Byte} {plen rlen : Nat} {s t : State} {i : Instr}
    (hi : i ∈ [Instr.pack cb plen, .send cb plen, .request cb plen rlen]) (h : exec i s = .next t) :
    phaseSend cb plen (accept i s) = .next t := by
  obtain ⟨hb, hroom, -⟩ := exec_next h
  rw [← h, exec_sending hb hi]
  rintro rfl
  exact hroom (by simp [phasesOf])

/-- Settles O11: the frame offered is written to SCR from offset 0, and both sums of a frame built by R140 are 0. -/
theorem sentFrameInScratchIsBalanced : Obligations.SentFrameInScratchIsBalanced := by
  intro cb plen rlen s t i hi hfit h
  rcases phaseSend_next.1 (exec_sending_next hi h) with ⟨hlong, -⟩ | ⟨-, p, hp, rfl⟩
  · exact absurd hfit (Nat.not_le.2 hlong)
  · obtain rfl : p.length = plen := readBytes_length hp
    have hlen := buildFrame_length cb p
    refine ⟨buildFrame cb p, rfl, hlen, fun k hk => ?_, fun k hk => ?_, fun k => ⟨rfl, rfl⟩, ?_, ?_⟩
    · exact (readByte_writeBytes _ _ _ _).trans (if_pos (by omega))
    · exact readByte_writeBytes_outside _ _ _ _ (by omega)
    · exact add_neg8 (lenByte p)
    · rw [buildFrame_eq_frameOf, slice_frameOf_checked, sum8_checkedBytes]

/-! ## Commands that are refused -/

/-- Settles O14: while no command is in progress each command's own capacity check comes first. -/
theorem oversizeCommandsAreRefused : Obligations.OversizeCommandsAreRefused := by
  intro cb plen rlen n s hb
  refine ⟨fun hlong => ⟨?_, ?_⟩, fun hlong => ?_⟩ <;> exact (whenIdle_of_idle hb).trans (if_pos hlong)

end Sys2Proof.Machine
end

section
/-! The checks of an inbound frame (41_frame_codec.md R160 to R171): their order (O16), a frame's round trip (O17), the
single-byte changes (O18) and the bounds of a valid frame (O19). -/

namespace Sys2Proof.Machine

/-! ## The checks by stage (R163) -/

/-- V1: the preamble and the start marker. -/
def StartOk (b : List Byte) : Prop := at8 b 0 = 0x00 ∧ at8 b 1 = 0x00 ∧ at8 b 2 = 0xFF

/-- V1 to V3: the start, the sum of LEN and LCS, and a LEN that counts at least direction and command. -/
structure HeaderOk (b : List Byte) : Prop where
  start : StartOk b
  lcs : at8 b 3 + at8 b 4 = 0
  len : 2 ≤ (at8 b 3).toNat

/-- V1 to V5: the postamble lies in the window too, and is 0x00. -/
structure ExtentOk (b : List Byte) : Prop extends HeaderOk b where
  inside : 6 + (at8 b 3).toNat < b.length
  postamble : at8 b (6 + (at8 b 3).toNat) = 0x00

section
variable {b : List Byte}

theorem StartOk.not_bad (h : StartOk b) : ¬ (at8 b 0 ≠ 0x00 ∨ at8 b 1 ≠ 0x00 ∨ at8 b 2 ≠ 0xFF) := by
  obtain ⟨h0, h1, h2⟩ := h
  simp [h0, h1, h2]

theorem validateFrame_of_not_start (h : ¬ StartOk b) : validateFrame b = .error .badResponse :=
  if_pos (by simpa only [StartOk, not_and_or] using h)

theorem validateFrame_of_lcs (h : StartOk b) (hlcs : at8 b 3 + at8 b 4 ≠ 0) : validateFrame b = .error .badChecksum :=
  (if_neg h.not_bad).trans (if_pos hlcs)

theorem validateFrame_of_len_zero (h : StartOk b) (hlcs : at8 b 3 + at8 b 4 = 0) (hlen : (at8 b 3).toNat = 0) :
    validateFrame b = .error .badResponse :=
  (if_neg h.not_bad).trans <| (if_neg (not_not.2 hlcs)).trans (if_pos hlen)

theorem validateFrame_of_len_one (h : StartOk b) (hlcs : at8 b 3 + at8 b 4 = 0) (hlen : (at8 b 3).toNat = 1) :
    validateFrame b = .error .syntaxErr :=
  (if_neg h.not_bad).trans <| (if_neg (not_not.2 hlcs)).trans <| (if_neg (by omega)).trans (if_pos hlen)

/-- Past V1 to V3 the checks V4 to V7 decide. -/
theorem validateFrame_of_header (h : HeaderOk b) : validateFrame b =
    if b.length ≤ 6 + (at8 b 3).toNat then .error .bufferUnderflow
    else if at8 b (6 + (at8 b 3).toNat) ≠ 0x00 then .error .badResponse
    else if at8 b 5 ≠ tfiIn then .error .badResponse
    else if sum8 (slice b 5 (6 + (at8 b 3).toNat)) ≠ 0 then .error .badChecksum
    else .ok (at8 b 6, (at8 b 3).toNat - 2) := by
  have hlen := h.len
  rw [show 6 + (at8 b 3).toNat = 5 + (at8 b 3).toNat + 1 by omega]
  exact (if_neg h.start.not_bad).trans <| (if_neg (not_not.2 h.lcs)).trans <|
    (if_neg (by omega)).trans (if_neg (by omega))

theorem validateFrame_of_short (h : HeaderOk b) (hshort : b.length ≤ 6 + (at8 b 3).toNat) :
    validateFrame b = .error .bufferUnderflow :=
  (validateFrame_of_header h).trans (if_pos hshort)

theorem validateFrame_of_postamble (h : HeaderOk b) (hin : 6 + (at8 b 3).toNat < b.length)
    (hpost : at8 b (6 + (at8 b 3).toNat) ≠ 0x00) : validateFrame b = .error .badResponse :=
  (validateFrame_of_header h).trans <| (if_neg (Nat.not_le.2 hin)).trans (if_pos hpost)

/-- Past V1 to V5 the direction and the data checksum decide. -/
theorem validateFrame_of_extent (h : ExtentOk b) : validateFrame b =
    if at8 b 5 ≠ tfiIn then .error .badResponse
    else if sum8 (slice b 5 (6 + (at8 b 3).toNat)) ≠ 0 then .error .badChecksum
    else .ok (at8 b 6, (at8 b 3).toNat - 2) :=
  (validateFrame_of_header h.toHeaderOk).trans <|
    (if_neg (Nat.not_le.2 h.inside)).trans (if_neg (not_not.2 h.postamble))

theorem validateFrame_of_direction (h : ExtentOk b) (htfi : at8 b 5 ≠ tfiIn) :
    validateFrame b = .error .badResponse :=
  (validateFrame_of_extent h).trans (if_pos htfi)

theorem validateFrame_of_sum (h : ExtentOk b) (htfi : at8 b 5 = tfiIn)
    (hsum : sum8 (slice b 5 (6 + (at8 b 3).toNat)) ≠ 0) : validateFrame b = .error .badChecksum :=
  (validateFrame_of_extent h).trans <| (if_neg (not_not.2 htfi)).trans (if_pos hsum)

theorem validateFrame_of_valid (h : ExtentOk b) (htfi : at8 b 5 = tfiIn)
    (hsum : sum8 (slice b 5 (6 + (at8 b 3).toNat)) = 0) : validateFrame b = .ok (at8 b 6, (at8 b 3).toNat - 2) :=
  (validateFrame_of_extent h).trans <| (if_neg (not_not.2 htfi)).trans (if_neg (not_not.2 hsum))

/-- A frame is valid exactly when its extent is in order, its direction is inbound and its data sum is 0. -/
theorem validateFrame_ok_iff {c : Byte} {n : Nat} : validateFrame b = .ok (c, n) ↔
    ExtentOk b ∧ at8 b 5 = tfiIn ∧ sum8 (slice b 5 (6 + (at8 b 3).toNat)) = 0 ∧
      c = at8 b 6 ∧ n = (at8 b 3).toNat - 2 := by
  rw [validateFrame_ok]
  constructor
  · rintro ⟨hstart, hlcs, hlen, hin, hpost, hrest⟩
    exact ⟨⟨⟨hstart, hlcs, hlen⟩, hin, hpost⟩, hrest⟩
  · rintro ⟨⟨⟨hstart, hlcs, hlen⟩, hin, hpost⟩, hrest⟩
    exact ⟨hstart, hlcs, hlen, hin, hpost, hrest⟩

theorem startOk_iff (hb : 9 ≤ b.length) :
    StartOk b ↔ b[0]? = some 0x00 ∧ b[1]? = some 0x00 ∧ b[2]? = some 0xFF := by
  rw [StartOk, getElem?_eq_some_iff_at8 (by omega), getElem?_eq_some_iff_at8 (by omega),
    getElem?_eq_some_iff_at8 (by omega)]

end

/-- Settles O16: the stages in their order, each condition read as the statement writes it. -/
theorem frameChecksInOrder : Obligations.FrameChecksInOrder := by
  intro b hb v1 len v2 q v7
  have hstart : StartOk b ↔ v1 := startOk_iff hb
  have hlcs : at8 b 3 + at8 b 4 = 0 ↔ v2 := add_eq_zero_iff_toNat _ _
  have hq : 6 + (at8 b 3).toNat = q := by omega
  have hsum : sum8 (slice b 5 (6 + (at8 b 3).toNat)) = 0 ↔ v7 := hq ▸ sum8_eq_zero_iff _
  have htfi : b[5]? = some 0xD5 ↔ at8 b 5 = tfiIn := getElem?_eq_some_iff_at8 (by omega) _
  rw [← hstart, ← hlcs, ← hsum, ← hq]
  have hextent : ∀ h : HeaderOk b, b[6 + (at8 b 3).toNat]? = some 0x00 → ExtentOk b := fun h hpost =>
    have hin := (List.getElem?_eq_some_iff.1 hpost).1
    ⟨h, hin, (getElem?_eq_some_iff_at8 hin _).1 hpost⟩
  refine ⟨validateFrame_of_not_start, validateFrame_of_lcs, validateFrame_of_len_zero, validateFrame_of_len_one,
    fun h1 h2 h3 => validateFrame_of_short ⟨h1, h2, h3⟩, fun h1 h2 h3 hin hpost => ?_,
    fun h1 h2 h3 hpost hdir => validateFrame_of_direction (hextent ⟨h1, h2, h3⟩ hpost) (mt htfi.2 hdir),
    fun h1 h2 h3 hpost hdir => validateFrame_of_sum (hextent ⟨h1, h2, h3⟩ hpost) (htfi.1 hdir),
    fun h1 h2 h3 hpost hdir => validateFrame_of_valid (hextent ⟨h1, h2, h3⟩ hpost) (htfi.1 hdir)⟩
  exact validateFrame_of_postamble ⟨h1, h2, h3⟩ hin (mt (getElem?_eq_some_iff_at8 hin _).2 hpost)

/-! ## The round trip (R168) -/

theorem frameOf_extentOk (tfi c : Byte) {p : List Byte} (hp : p.length ≤ 253) (x : List Byte) :
    ExtentOk (frameOf tfi c p x) := by
  have hlen : (at8 (frameOf tfi c p x) 3).toNat = 2 + p.length := lenByte_toNat hp
  have hin : 8 + p.length < (frameOf tfi c p x).length := by rw [frameOf_length]; omega
  have hpost := frameOf_postamble tfi c p x
  refine ⟨⟨⟨rfl, rfl, rfl⟩, add_neg8 (lenByte p), by omega⟩, by omega, ?_⟩
  rw [hlen, ← Nat.add_assoc]
  exact (getElem?_eq_some_iff_at8 hin _).1 hpost

theorem validateFrame_frameOf (c : Byte) {p : List Byte} (hp : p.length ≤ 253) (x : List Byte) :
    validateFrame (frameOf tfiIn c p x) = .ok (c, p.length) := by
  have hlen : (at8 (frameOf tfiIn c p x) 3).toNat = 2 + p.length := lenByte_toNat hp
  refine validateFrame_ok_iff.2 ⟨frameOf_extentOk tfiIn c hp x, rfl, ?_, rfl, by omega⟩
  rw [hlen, ← Nat.add_assoc, slice_frameOf_checked, sum8_checkedBytes]

/-- Settles O17: the two frames differ in the direction byte and their checksum alone, and only 0xD5 passes V6. -/
theorem inboundFrameRoundTrip : Obligations.InboundFrameRoundTrip := by
  intro c p x hp len frame
  have hframe : ∀ tfi, frame tfi = frameOf tfi c p x := fun tfi => (frameOf_eq tfi c p x).symm
  rw [hframe, hframe]
  exact ⟨validateFrame_frameOf c hp x, slice_frameOf_payload ..,
    validateFrame_of_direction (frameOf_extentOk _ c hp x) (by decide : (0xD4 : Byte) ≠ 0xD5)⟩

/-! ## Changes of one byte (R169) -/

theorem at8_set_same {b : List Byte} {k : Nat} (hk : k < b.length) (v : Byte) : at8 (b.set k v) k = v := by
  simp [at8, hk]

theorem at8_set_other {b : List Byte} {j k : Nat} (h : k ≠ j) (v : Byte) : at8 (b.set k v) j = at8 b j := by
  simp [at8, h]

theorem slice_set_outside {b : List Byte} {k a n : Nat} (h : k < a ∨ n ≤ k) (v : Byte) :
    slice (b.set k v) a n = slice b a n := by
  refine List.ext_getElem? fun j => ?_
  simp only [slice, List.getElem?_take, List.getElem?_drop]
  split
  · rw [List.getElem?_set_ne (by omega)]
  · rfl

theorem slice_set_inside {b : List Byte} {k a n : Nat} (ha : a ≤ k) (v : Byte) :
    slice (b.set k v) a n = (slice b a n).set (k - a) v := by
  rw [slice, slice, List.drop_set, if_neg (by omega), List.take_set]

theorem at8_slice {b : List Byte} {k a n : Nat} (ha : a ≤ k) (hn : k < n) : at8 (slice b a n) (k - a) = at8 b k := by
  simp only [at8, slice, List.getD_eq_getElem?_getD, List.getElem?_take, List.getElem?_drop, Nat.add_sub_cancel' ha]
  rw [if_pos (by omega)]

/-- Changing one byte of a sequence changes its sum. -/
theorem sum8_set_ne {s : List Byte} {k : Nat} (hk : k < s.length) {v : Byte} (hv : at8 s k ≠ v) :
    sum8 (s.set k v) ≠ sum8 s := by
  induction s generalizing k with
  | nil => simp at hk
  | cons b rest ih =>
    cases k with
    | zero => simpa [at8] using Ne.symm hv
    | succ k => simpa using ih (by simpa using hk) (by simpa [at8] using hv)

section
variable {b : List Byte} {k : Nat}

/-! A change behind the bytes a check reads leaves the check passed. -/

theorem StartOk.set (h : StartOk b) (hk : 3 ≤ k) (v : Byte) : StartOk (b.set k v) := by
  obtain ⟨h0, h1, h2⟩ := h
  exact ⟨(at8_set_other (by omega) v).trans h0, (at8_set_other (by omega) v).trans h1,
    (at8_set_other (by omega) v).trans h2⟩

theorem HeaderOk.set (h : HeaderOk b) (hk : 5 ≤ k) (v : Byte) : HeaderOk (b.set k v) where
  start := h.start.set (by omega) v
  lcs := by rw [at8_set_other (by omega), at8_set_other (by omega), h.lcs]
  len := by rw [at8_set_other (by omega)]; exact h.len

theorem ExtentOk.set (h : ExtentOk b) (hk : 5 ≤ k) (hpost : k ≠ 6 + (at8 b 3).toNat) (v : Byte) :
    ExtentOk (b.set k v) where
  toHeaderOk := h.toHeaderOk.set hk v
  inside := by rw [at8_set_other (by omega), List.length_set]; exact h.inside
  postamble := by rw [at8_set_other (show k ≠ 3 by omega), at8_set_other hpost, h.postamble]

end

/-- Settles O18: a changed byte keeps the checks before its own and fails that one. -/
theorem singleByteChangesAreDetected : Obligations.SingleByteChangesAreDetected := by
  intro b c v n k hvalid hk hne len
  obtain ⟨hext, htfi, hsum, rfl, rfl⟩ := validateFrame_ok_iff.1 hvalid
  obtain ⟨h0, h1, h2⟩ := hext.start
  have hlcs := hext.lcs
  have hlen := hext.len
  have hin := hext.inside
  have hold : at8 b k ≠ v := mt (getElem?_eq_some_iff_at8 hk v).2 hne
  have hsame := at8_set_same hk v
  have hother : ∀ j, k ≠ j → at8 (b.set k v) j = at8 b j := fun j hj => at8_set_other hj v
  refine ⟨fun h => validateFrame_of_not_start ?_, fun h => validateFrame_of_lcs (hext.start.set (by omega) v) ?_,
    fun h => ?_, fun hlo hhi => ?_, fun h => ?_, fun h => ?_⟩
  · rintro ⟨h0', h1', h2'⟩
    obtain rfl | rfl | rfl : k = 0 ∨ k = 1 ∨ k = 2 := by omega
    · exact hold (h0.trans (h0'.symm.trans hsame))
    · exact hold (h1.trans (h1'.symm.trans hsame))
    · exact hold (h2.trans (h2'.symm.trans hsame))
  · rcases h with rfl | rfl
    · rw [hsame, hother 4 (by omega)]
      exact fun h => hold (add_right_cancel (hlcs.trans h.symm))
    · rw [hsame, hother 3 (by omega)]
      exact fun h => hold (add_left_cancel (hlcs.trans h.symm))
  · subst h
    exact validateFrame_of_direction (hext.set (by omega) (by omega) v) (by rw [hsame, ← htfi]; exact hold.symm)
  · refine validateFrame_of_sum (hext.set (by omega) (by omega) v) ((hother 5 (by omega)).trans htfi) ?_
    rw [hother 3 (by omega), slice_set_inside (by omega), ← hsum]
    exact sum8_set_ne (by rw [slice_length (by omega)]; omega) (by rwa [at8_slice (by omega) (by omega)])
  · subst h
    refine validateFrame_of_postamble (hext.toHeaderOk.set (by omega) v) ?_ ?_
    · rwa [hother 3 (by omega), List.length_set]
    · rw [hother 3 (by omega), hsame, ← hext.postamble]
      exact hold.symm
  · refine validateFrame_ok_iff.2 ⟨hext.set (by omega) (by omega) v, (hother 5 (by omega)).trans htfi, ?_,
      (hother 6 (by omega)).symm, by rw [hother 3 (by omega)]⟩
    rw [hother 3 (by omega), slice_set_outside (by omega), hsum]

/-! ## The bounds of a valid frame (R171) -/

/-- Settles O19: the postamble of a valid frame lies inside the window. -/
theorem validFrameBounds : Obligations.ValidFrameBounds := by
  intro b c n rlen hb hvalid
  obtain ⟨hext, -, -, -, rfl⟩ := validateFrame_ok_iff.1 hvalid
  have hlen := hext.len
  have hin := hext.inside
  omega

end Sys2Proof.Machine
end

section
/-! The completions that end an FCU command: a wrong ACK (41_frame_codec.md R152; O20), the response read (R162 to R167;
O21), and the whole of PACK, WAITRDY and RDACK (O26). -/

namespace Sys2Proof.Machine

/-! ## Receives -/

/-- A receive pending for the command `l` that completes with its bytes hands them to the phase (R152, R162). -/
theorem complete_okBytes {s : State} {l : Latch} {b : List Byte} (hc : s.pending = some (.recv b.length))
    (hl : s.latch = some l) : complete (.okBytes b) s = .next (bytesReceived b l.instr (takeCall s)) :=
  (complete_of_pending hc hl _).trans (if_pos rfl)

theorem bytesReceived_of_ack {s : State} (h : s.status.phase = .ack) (b : List Byte) (i : Instr) :
    bytesReceived b i s = ackReceived b i s :=
  if_pos h

theorem bytesReceived_of_recv {s : State} (h : s.status.phase = .recv) (b : List Byte) (i : Instr) :
    bytesReceived b i s = frameReceived b i s :=
  if_neg (by simp [h])

/-- An ACK read that completes with ACK_FRAME ends the ACK phase (R152). -/
theorem complete_rightAck {s : State} {l : Latch} (hc : s.pending = some (.recv 6)) (hl : s.latch = some l)
    (hphase : s.status.phase = .ack) (hack : s.cfg.ackFrame.length = 6) :
    complete (.okBytes s.cfg.ackFrame) s = .next (advance l.instr (setAckcap s.cfg.ackFrame (takeCall s))) := by
  rw [complete_okBytes (hack ▸ hc) hl, bytesReceived_of_ack (s := takeCall s) hphase]
  exact congrArg _ (if_neg (not_not.2 rfl))

/-- Settles O20: the six bytes differ from ACK_FRAME, so the ACK phase raises its error. -/
theorem ackMismatchEndsTheCommand : Obligations.AckMismatchEndsTheCommand := by
  intro s l b hc hl hphase hlen hne
  rw [complete_okBytes (hlen ▸ hc) hl, bytesReceived_of_ack (s := takeCall s) hphase, ← hphase]
  exact congrArg _ (if_pos hne)

theorem frameReceived_of_error {b : List Byte} {e : ErrCode} (h : validateFrame b = .error e) (i : Instr) (s : State) :
    frameReceived b i s = raiseErr e (writeScr b s) := by
  simp only [frameReceived, h]

theorem frameReceived_of_ok {b : List Byte} {c : Byte} {n : Nat} (h : validateFrame b = .ok (c, n)) (i : Instr)
    {s : State} (hphase : s.status.phase = .recv) :
    frameReceived b i s = finish (setResult c n (writeScr b s)) := by
  simp only [frameReceived, h]
  exact advance_of_recv i hphase

/-- In RECV the pending call is the receive of the window, and its completion validates what came (R162). -/
theorem complete_response {s : State} {l : Latch} {b : List Byte} (hport : s.portOk) (hphase : s.status.phase = .recv)
    (hl : s.latch = some l) (hb : b.length = rlenOf l.instr + 9) :
    complete (.okBytes b) s = .next (frameReceived b l.instr (takeCall s)) := by
  rcases State.portOk_cases hport with ⟨-, hnone, -⟩ | ⟨call, l', hc, hl', -, -, -, -, -, -, hfits, -⟩
  · simp [hl] at hnone
  · obtain rfl : l' = l := Option.some.inj (hl'.symm.trans hl)
    rw [hphase] at hfits
    cases call with
    | recv n =>
      obtain rfl : n = b.length := Eq.trans hfits hb.symm
      rw [complete_okBytes hc hl, bytesReceived_of_recv (s := takeCall s) hphase]
    | send bytes => contradiction
    | wait => contradiction

/-- Settles O21: the response read by the verdict of validation, and the write to SCR byte by byte. -/
theorem responseReadIsValidated : Obligations.ResponseReadIsValidated := by
  intro s l b hport hphase hl hb
  rw [complete_response hport hphase hl hb]
  refine ⟨fun e he => ?_, fun c n hok => ?_, fun k => ?_⟩
  · rw [frameReceived_of_error he, ← hphase]
    rfl
  · rw [frameReceived_of_ok (s := takeCall s) hok l.instr hphase]
    rfl
  · simp [readByte_writeBytes]

/-! ## Commands of one phase (42_handshake.md R193) -/

/-- A completion that ends the command ends the run, the rest of the script left over. -/
theorem serve_of_last {s t : State} {c : Completion} (hbusy : s.status.busy = true) (h : complete c s = .next t)
    (ht : t.status.busy = false) (rest : List Completion) : serve (c :: rest) s = .next (t, rest) := by
  rw [serve_of_busy hbusy, h, andThen_of_next, serve_of_idle ht]

theorem exec_waitrdy {s : State} (hb : s.status.busy = false) :
    exec .waitrdy s = .next (phaseWait .wait1 (accept .waitrdy s)) :=
  whenIdle_of_idle hb

theorem exec_rdack {s : State} (hb : s.status.busy = false) : exec .rdack s = .next (phaseAck (accept .rdack s)) :=
  whenIdle_of_idle hb

theorem lastop_pack (cb : Byte) (plen : Nat) : (encode (.pack cb plen)).setWidth 4 = 1 :=
  BitVec.eq_of_toNat_eq ((toNat_setWidth_4 _).trans (opcOf_encode _))

/-- Settles O26: each command's only phase ends with its first completion. -/
theorem singlePhaseCommandsFinish : Obligations.SinglePhaseCommandsFinish := by
  intro s cb plen p rest hidle
  obtain ⟨hb, hpending, hlatch⟩ := hidle
  rw [hpending, hlatch]
  refine ⟨fun hfit hp => ?_, ?_, fun hack => ?_⟩
  · have hsent := sendingCommandsOfferTheFrame cb plen 0 p s (.pack cb plen) ⟨hb, hpending, hlatch⟩ (by simp)
      nofun hfit hp
    rw [hsent, andThen_of_next, lastop_pack]
    exact serve_of_last rfl rfl rfl rest
  · rw [exec_waitrdy hb, andThen_of_next]
    exact serve_of_last rfl rfl rfl rest
  · rw [exec_rdack hb, andThen_of_next]
    exact serve_of_last rfl (complete_rightAck (s := phaseAck (accept .rdack s)) rfl rfl rfl hack) rfl rest

end Sys2Proof.Machine
end

section
/-! The handshake sequencer (42_handshake.md): what ends BUSY (R199; O58), the acceptance of the commands of one phase
(R194, R200; O15), the calls the transport sees (R193, R203; O23), and the whole of REQUEST and SEND (R195, R196; O24,
O25). -/

namespace Sys2Proof.Machine

/-! ## The end of BUSY (R199, 70_reset_and_hazards.md R342) -/

/-- Settles O58: a host step that answers leaves BUSY set, and a late completion or no event at all changes nothing. -/
theorem busyEndsOnlyByCompletionOrReset : Obligations.BusyEndsOnlyByCompletionOrReset := by
  intro s t hbusy hstep hidle
  rcases step_next hstep with rfl | ⟨e, rest, hevents, ht⟩
  · simp [hbusy] at hidle
  · cases e with
    | transport c => exact ⟨rest, .inr ⟨c, hevents⟩⟩
    | reset => exact ⟨rest, .inl hevents⟩
    | host a =>
      obtain ⟨stg, nin, r, d, rfl⟩ := hostStep_busy_next (s := { s with events := rest }) hbusy ht
      simp [hbusy] at hidle
    | late c =>
      obtain ⟨⟩ := ht
      simp [hbusy] at hidle

/-! ## Acceptance of the commands of one phase (R200, 41_frame_codec.md R151, R161) -/

/-- LASTOP after the acceptance of a command is its opcode (10_state.md R34). -/
theorem lastop_encode (i : Instr) : (encode i).setWidth 4 = BitVec.ofNat 4 (Laws.EncodeOpcode.rowOpcode i) := by
  rw [← opcOf_encode i, ← toNat_setWidth_4, BitVec.ofNat_toNat, BitVec.setWidth_eq]

theorem exec_rdresp {rlen : Nat} {s : State} (hb : s.status.busy = false) (hroom : rlen + 9 ≤ s.cfg.bufCap) :
    exec (.rdresp rlen) s = .next (phaseRecv rlen (accept (.rdresp rlen) s)) :=
  (whenIdle_of_idle hb).trans (if_neg (Nat.not_lt.2 hroom))

/-- Settles O15: acceptance, and the call of the command's only phase. -/
theorem singlePhaseCommandsIssueTheirCall : Obligations.SinglePhaseCommandsIssueTheirCall := by
  rintro s ⟨hb, -, -⟩
  refine ⟨exec_waitrdy hb, exec_rdack hb, fun rlen hroom => ?_⟩
  rw [exec_rdresp hb hroom]
  have hlastop : (encode (.rdresp rlen)).setWidth 4 = 4 := lastop_encode (.rdresp rlen)
  simp only [accept, acceptWord, acceptStatus, hlastop]
  rfl

/-! ## A completion that ends its phase -/

/-- A send or a wait that completes ends its phase (R194, 41_frame_codec.md R143). -/
theorem complete_ok {s : State} {call : Call} {l : Latch} (hc : s.pending = some call) (hl : s.latch = some l)
    (hcall : call = .wait ∨ ∃ bytes, call = .send bytes) :
    complete .ok s = .next (advance l.instr (takeCall s)) := by
  rw [complete_of_pending hc hl]
  rcases hcall with rfl | ⟨bytes, rfl⟩ <;> rfl

/-- What the completion of a command's call leaves: no call is pending, or the phase is over and what the row has next
follows (R193). -/
theorem complete_ends_phase {s t : State} {l : Latch} {c : Completion} (hc : s.pending.isSome) (hl : s.latch = some l)
    (h : complete c s = .next t) :
    t.pending = none ∨ ∃ u : State, t = advance l.instr u ∧ u.status.phase = s.status.phase ∧ u.pending = none ∧
      u.latch = some l := by
  rcases complete_next h with ⟨hnone, -⟩ | ⟨call, l', -, hl', hcases⟩
  · rcases hnone with hnone | hnone
    · simp [hnone] at hc
    · simp [hl] at hnone
  · obtain rfl : l' = l := Option.some.inj (hl'.symm.trans hl)
    rcases hcases with ⟨-, -, -, rfl⟩ | ⟨-, -, rfl⟩ | ⟨b, -, -, rfl⟩ | ⟨info, -, -, rfl⟩ | ⟨n, info, -, -, rfl⟩
    · exact .inr ⟨takeCall s, rfl, rfl, rfl, hl⟩
    · exact .inr ⟨takeCall s, rfl, rfl, rfl, hl⟩
    · unfold bytesReceived
      split
      · unfold ackReceived
        split
        · exact .inl rfl
        · exact .inr ⟨setAckcap b (takeCall s), rfl, rfl, rfl, hl⟩
      · unfold frameReceived
        cases validateFrame b with
        | error e => exact .inl rfl
        | ok r => exact .inr ⟨setResult r.1 r.2 (writeScr b (takeCall s)), rfl, rfl, rfl, hl⟩
    · exact .inl rfl
    · unfold receiveFailed
      dsimp only
      split <;> exact .inl rfl

/-! ## The calls of a command (R193, R203) -/

/-- The transport call of the phase `q` of `i` with the payload `p` (R193). IDLE is no phase of a command. -/
def phaseCall (p : List Byte) (i : Instr) : Phase → Call
  | .idle => .wait
  | .send => .send (buildFrame (cmdbOf i) p)
  | .wait1 => .wait
  | .ack => .recv 6
  | .wait2 => .wait
  | .recv => .recv (rlenOf i + 9)

theorem callRow_eq_phases (p : List Byte) (i : Instr) : callRow p i = (phasesOf i).map (phaseCall p i) := by
  cases i <;> rfl

theorem enterPhase_calls {q : Phase} (hidle : q ≠ .idle) (hsend : q ≠ .send) (p : List Byte) (i : Instr) (s : State) :
    enterPhase q i s = issue (phaseCall p i q) (setPhase q s) := by
  cases q with
  | idle => exact absurd rfl hidle
  | send => exact absurd rfl hsend
  | wait1 | ack | wait2 | recv => rfl

/-- The call of the phase `q` of the command `i` with the payload `p` is pending. -/
structure State.Calling (p : List Byte) (i : Instr) (q : Phase) (s : State) : Prop where
  phase : s.status.phase = q
  call : s.pending = some (phaseCall p i q)
  latch : ∃ l, s.latch = some l ∧ l.instr = i

theorem callsSeen_of_none {s : State} (h : s.pending = none) (script : List Completion) : callsSeen script s = [] := by
  cases script <;> simp [callsSeen, h]

/-- The pending call is seen first, then those after its completion. -/
theorem callsSeen_cons_prefix {s : State} {call : Call} (hc : s.pending = some call) {calls : List Call}
    {c : Completion} {rest : List Completion} (hrest : ∀ t, complete c s = .next t → callsSeen rest t <+: calls) :
    callsSeen (c :: rest) s <+: call :: calls := by
  simp only [callsSeen, hc]
  cases h : complete c s with
  | next t => exact List.cons_prefix_cons.2 ⟨rfl, hrest t h⟩
  | fault f => exact List.cons_prefix_cons.2 ⟨rfl, List.nil_prefix⟩
  | refused r => exact List.cons_prefix_cons.2 ⟨rfl, List.nil_prefix⟩

/-- From a call of the phase `q` on, the calls are those of `q` and the phases after it, as far as the command goes. -/
theorem State.Calling.callsSeen_prefix {p : List Byte} {i : Instr} (script : List Completion) :
    ∀ {q : Phase} {qs : List Phase} {s : State}, s.Calling p i q → q :: qs <:+ phasesOf i →
      callsSeen script s <+: (q :: qs).map (phaseCall p i) := by
  induction script with
  | nil =>
    intro q qs s h _
    simp [callsSeen, h.call]
  | cons c rest ih =>
    intro q qs s h hrow
    obtain ⟨l, hl, rfl⟩ := h.latch
    refine callsSeen_cons_prefix h.call fun t ht => ?_
    rcases complete_ends_phase (by simp [h.call]) hl ht with hnone | ⟨u, rfl, hphase, hpending, hlatch⟩
    · rw [callsSeen_of_none hnone]
      exact List.nil_prefix
    · have hnext : nextPhase l.instr u.status.phase = qs.head? := by rw [hphase, h.phase, nextPhase_of_suffix hrow]
      cases qs with
      | nil =>
        rw [advance_of_last hnext, callsSeen_of_none (s := finish u) hpending]
        exact List.nil_prefix
      | cons r rs =>
        obtain ⟨hr, hsend⟩ := nextPhase_some hnext
        rw [advance_of_nextPhase hnext, enterPhase_calls (ne_idle_of_mem_phasesOf hr) hsend p]
        exact ih ⟨rfl, rfl, l, hlatch, rfl⟩ ((List.suffix_cons q _).trans hrow)

theorem recordStep_pending {s t : State} (h : recordStep s = .next t) : t.pending = s.pending := by
  rcases recordStep_next h with ⟨-, rfl⟩ | ⟨e, -, rfl⟩ | ⟨kind, -, r, -, -, -, -, rfl⟩ <;> rfl

theorem nextItem_pending {s t : State} (h : nextItem s = .next t) : t.pending = s.pending := by
  unfold nextItem at h
  split at h
  · obtain ⟨⟩ := h
    rfl
  · rcases freshStep_next h with rfl | ⟨off, -, ht⟩ | ⟨-, rfl⟩
    · rfl
    · exact recordStep_pending (s := startReading off s) ht
    · rfl
  · exact recordStep_pending h

/-- SEND is the first phase of every row that has it (R193). -/
theorem phasesOf_of_send {i : Instr} (h : .send ∈ phasesOf i) : ∃ qs, phasesOf i = .send :: qs := by
  have hfirst := send_notMem_tail_phasesOf i
  cases hrow : phasesOf i with
  | nil => simp [hrow] at h
  | cons q qs =>
    rw [hrow] at h hfirst
    obtain rfl := (List.mem_cons.1 h).resolve_right hfirst
    exact ⟨qs, rfl⟩

theorem phasesOf_of_not_send {i : Instr} {q : Phase} (hq : q ∈ phasesOf i) (hsend : .send ∉ phasesOf i) :
    phasesOf i = [q] := by
  cases i <;> simp_all [phasesOf]

theorem sent_calling {i : Instr} {s t : State} {p : List Byte} (hs : s.pending = none)
    (hp : plenOf i ≤ s.cfg.bufCap - 10 → readBytes s.stg 0 (plenOf i) = some p)
    (h : phaseSend (cmdbOf i) (plenOf i) (accept i s) = .next t) : t.pending = none ∨ t.Calling p i .send := by
  rcases phaseSend_next.1 h with ⟨-, rfl⟩ | ⟨hfit, p', hp', rfl⟩
  · exact .inl hs
  · obtain rfl : p' = p := Option.some.inj (hp'.symm.trans (hp hfit))
    exact .inr ⟨rfl, rfl, _, rfl, rfl⟩

/-- A command that is accepted and goes on has the call of its row's first phase pending (R193, R203). -/
theorem exec_calling {i : Instr} {s t : State} {p : List Byte} (hs : s.pending = none)
    (hp : plenOf i ≤ s.cfg.bufCap - 10 → readBytes s.stg 0 (plenOf i) = some p) (h : exec i s = .next t) :
    t.pending = none ∨ ∃ q qs, phasesOf i = q :: qs ∧ t.Calling p i q := by
  obtain ⟨hb, hroom, hcases⟩ := exec_next h
  by_cases hsend : .send ∈ phasesOf i
  · obtain ⟨qs, hrow⟩ := phasesOf_of_send hsend
    rw [exec_of_send hb hsend hroom] at h
    exact (sent_calling hs hp h).imp_right fun hcalling => ⟨.send, qs, hrow, hcalling⟩
  · rcases hcases with ⟨hmem, -⟩ | ⟨q, hq, hne, rfl⟩ | ⟨n, rfl, -, rfl⟩ | ⟨rfl, ht⟩
    · exact absurd hmem hsend
    · refine .inr ⟨q, [], phasesOf_of_not_send hq hsend, ?_⟩
      rw [enterPhase_calls (ne_idle_of_mem_phasesOf hq) hne p]
      exact ⟨rfl, rfl, _, rfl, rfl⟩
    · exact .inl hs
    · exact .inl ((nextItem_pending ht).trans hs)

/-- Settles O23: acceptance leaves the row's first call pending or none, and each completion the next one or none. -/
theorem callsFollowTheRow : Obligations.CallsFollowTheRow := by
  rintro i s t p script ⟨-, hs, -⟩ h hp
  rw [callRow_eq_phases]
  rcases exec_calling hs hp h with hnone | ⟨q, qs, hrow, hcalling⟩
  · rw [callsSeen_of_none hnone]
    exact List.nil_prefix
  · rw [hrow]
    exact hcalling.callsSeen_prefix script (by rw [hrow])

/-! ## Whole commands (R195, R196) -/

theorem serve_ok {s : State} {call : Call} {l : Latch} (hb : s.status.busy = true) (hc : s.pending = some call)
    (hl : s.latch = some l) (hcall : call = .wait ∨ ∃ bytes, call = .send bytes) (rest : List Completion) :
    serve (.ok :: rest) s = serve rest (advance l.instr (takeCall s)) := by
  rw [serve_of_busy hb, complete_ok hc hl hcall, andThen_of_next]

/-- A command in SEND whose next phases are WAIT1 and ACK comes to the end of ACK with two ok and ACK_FRAME (R195,
R196). -/
theorem serve_through_ack {s : State} {l : Latch} {bytes ack : List Byte} {qs : List Phase} (hb : s.status.busy = true)
    (hphase : s.status.phase = .send) (hc : s.pending = some (.send bytes)) (hl : s.latch = some l)
    (hrow : phasesOf l.instr = .send :: .wait1 :: .ack :: qs) (hack : ack.length = 6)
    (hframe : s.cfg.ackFrame = ack) (rest : List Completion) :
    serve (.ok :: .ok :: .okBytes ack :: rest) s =
      serve rest (advance l.instr (setAckcap ack (setPhase .ack (takeCall s)))) := by
  subst hframe
  have hwait : nextPhase l.instr .send = some .wait1 := nextPhase_of_suffix (by rw [hrow])
  have hread : nextPhase l.instr .wait1 = some .ack := nextPhase_of_suffix
    (show .wait1 :: .ack :: qs <:+ phasesOf l.instr by rw [hrow]; exact List.suffix_cons _ _)
  have hsent : advance l.instr (takeCall s) = phaseWait .wait1 (takeCall s) :=
    advance_of_nextPhase (s := takeCall s) (hphase ▸ hwait)
  have hready : advance l.instr (takeCall (phaseWait .wait1 (takeCall s))) = phaseAck (takeCall s) :=
    advance_of_nextPhase (s := takeCall (phaseWait .wait1 (takeCall s))) hread
  have hacked : complete (.okBytes s.cfg.ackFrame) (phaseAck (takeCall s)) =
      .next (advance l.instr (setAckcap s.cfg.ackFrame (setPhase .ack (takeCall s)))) :=
    complete_rightAck (s := phaseAck (takeCall s)) rfl hl rfl hack
  rw [serve_ok hb hc hl (.inr ⟨bytes, rfl⟩), hsent,
    serve_ok (s := phaseWait .wait1 (takeCall s)) hb rfl hl (.inl rfl), hready,
    serve_of_busy (s := phaseAck (takeCall s)) hb, hacked, andThen_of_next]

/-- From WAIT2 on, an ok and a valid frame of the window end the command (R195, 41_frame_codec.md R166). -/
theorem serve_through_recv {s : State} {l : Latch} {b : List Byte} {c : Byte} {n : Nat} (hb : s.status.busy = true)
    (hphase : s.status.phase = .wait2) (hc : s.pending = some .wait) (hl : s.latch = some l)
    (hread : nextPhase l.instr .wait2 = some .recv) (hlen : b.length = rlenOf l.instr + 9)
    (hok : validateFrame b = .ok (c, n)) (rest : List Completion) :
    serve (.ok :: .okBytes b :: rest) s =
      .next (finish (setResult c n (writeScr b (setPhase .recv (takeCall s)))), rest) := by
  have hready : advance l.instr (takeCall s) = phaseRecv (rlenOf l.instr) (takeCall s) :=
    advance_of_nextPhase (s := takeCall s) (hphase ▸ hread)
  have hreceived : complete (.okBytes b) (phaseRecv (rlenOf l.instr) (takeCall s)) =
      .next (finish (setResult c n (writeScr b (setPhase .recv (takeCall s))))) := by
    rw [complete_okBytes (s := phaseRecv (rlenOf l.instr) (takeCall s)) (hlen ▸ rfl) hl,
      bytesReceived_of_recv rfl, frameReceived_of_ok hok l.instr rfl]
    rfl
  rw [serve_ok hb hc hl (.inl rfl), hready]
  exact serve_of_last (s := phaseRecv (rlenOf l.instr) (takeCall s)) hb hreceived rfl rest

/-- The state of the command `i` at the end of its ACK phase, accepted in the idle `s` with the payload `p` (R193). -/
def acknowledged (i : Instr) (p : List Byte) (s : State) : State :=
  { s with
    cmd := encode i
    status :=
      { busy := true, done := false, err := .none, phase := .ack, lastop := .ofNat 4 (Laws.EncodeOpcode.rowOpcode i) }
    result := { rcmd := 0, rplen := 0, rvalid := false }
    terrinfo := 0
    scr := writeBytes s.scr 0 (buildFrame (cmdbOf i) p)
    pending := none
    ackcap := some s.cfg.ackFrame
    latch := some { instr := i, payload := p } }

/-- SEND and REQUEST, answered ok twice and with ACK_FRAME, come to the end of their ACK phase (R195, R196). -/
theorem exec_through_ack {i : Instr} {s : State} {p : List Byte} {qs : List Phase} (hs : s.idle)
    (hrow : phasesOf i = .send :: .wait1 :: .ack :: qs) (hroom : .recv ∈ phasesOf i → rlenOf i + 9 ≤ s.cfg.bufCap)
    (hfit : plenOf i ≤ s.cfg.bufCap - 10) (hp : readBytes s.stg 0 (plenOf i) = some p)
    (hack : s.cfg.ackFrame.length = 6) (rest : List Completion) :
    andThen (exec i s) (serve (.ok :: .ok :: .okBytes s.cfg.ackFrame :: rest)) =
      serve rest (advance i (acknowledged i p s)) := by
  have hsend : .send ∈ phasesOf i := by simp [hrow]
  have hsent := sent_awaiting hsend hroom (buildFrame (cmdbOf i) p) p
  rw [exec_of_send hs.1 hsend hroom, phaseSend_of_written (s := accept i s) hfit hp, andThen_of_next,
    serve_through_ack hsent.busy hsent.phase rfl rfl hrow hack rfl, accept_of_send hsend, lastop_encode]
  rfl

/-- Settles O25: the frame sent and acknowledged, and no phase after ACK. -/
theorem sendRunsWithoutResponse : Obligations.SendRunsWithoutResponse := by
  intro s cb plen p rest hidle hack hfit hp
  have hacked := exec_through_ack (i := .send cb plen) hidle rfl nofun hfit hp hack rest
  obtain ⟨-, hpending, hlatch⟩ := hidle
  rw [advance_of_last rfl, serve_of_idle (s := finish _) rfl] at hacked
  rw [hpending, hlatch]
  exact hacked

/-- After the ACK phase of a command whose next phases are WAIT2 and RECV, an ok and a valid frame of the window end it
(R195, 41_frame_codec.md R166). With `i` left open, the check of the end state does not compute the command's word. -/
theorem serve_acknowledged {i : Instr} {p b : List Byte} {c : Byte} {n : Nat} {s : State}
    (hwait : nextPhase i .ack = some .wait2) (hread : nextPhase i .wait2 = some .recv) (hlen : b.length = rlenOf i + 9)
    (hok : validateFrame b = .ok (c, n)) (rest : List Completion) :
    serve (.ok :: .okBytes b :: rest) (advance i (acknowledged i p s)) =
      .next ({ s with
        cmd := encode i
        status :=
          { busy := false, done := true, err := .none, phase := .idle,
            lastop := .ofNat 4 (Laws.EncodeOpcode.rowOpcode i) }
        result := { rcmd := c, rplen := BitVec.ofNat 9 n, rvalid := true }
        terrinfo := 0
        scr := writeBytes (writeBytes s.scr 0 (buildFrame (cmdbOf i) p)) 0 b
        pending := none
        ackcap := some s.cfg.ackFrame
        latch := none }, rest) := by
  rw [advance_of_nextPhase (s := acknowledged i p s) hwait]
  exact serve_through_recv (l := { instr := i, payload := p }) rfl rfl rfl rfl hread hlen hok rest

/-- Settles O24: the frame sent and acknowledged as in SEND, then the wait and the response. -/
theorem requestRunsTheHandshake : Obligations.RequestRunsTheHandshake := by
  intro s cb c plen rlen n p b rest hidle hack hroom hfit hp hlen hok
  have hacked := exec_through_ack (i := .request cb plen rlen) hidle rfl (fun _ => hroom) hfit hp hack
    (.ok :: .okBytes b :: rest)
  obtain ⟨-, hpending, hlatch⟩ := hidle
  rw [hpending, hlatch]
  exact hacked.trans (serve_acknowledged rfl rfl hlen hok rest)

end Sys2Proof.Machine
end

section
/-! The companion's decode (43_response_decode.md R223, R224, R228): the length rule (O59) and the optional CardUid
(O60). -/

namespace Sys2Proof.Machine

/-! ## The length rule (R223, R224) -/

theorem decodePayload_unit (d : List Byte) : decodePayload .unit d = .ok .unit :=
  if_pos rfl

theorem decodePayload_of_length_ne {t : ResultType} {d : List Byte} (ht : t ≠ .unit) (hlen : d.length ≠ declaredLen t) :
    decodePayload t d = .error .decoder := by
  rw [decodePayload, if_neg ht, if_pos hlen]

theorem decodePayload_of_length_eq {t : ResultType} {d : List Byte} (ht : t ≠ .unit) (hlen : d.length = declaredLen t) :
    decodePayload t d = .ok (decodeBody t d) := by
  rw [decodePayload, if_neg ht, if_neg (not_not_intro hlen)]

/-- Settles O59: the length is judged before any byte is examined, and unit is not judged at all. -/
theorem decodeChecksTheLength : Obligations.DecodeChecksTheLength :=
  fun _ d => ⟨decodePayload_of_length_ne, decodePayload_unit d⟩

/-! ## The optional CardUid (R228) -/

theorem decodeUid_eq_none_iff (d : List Byte) : decodeUid d = none ↔ at8 d 0 ≠ 1 ∨ 7 < (at8 d 5).toNat := by
  rw [decodeUid]
  split_ifs with htarget hlong
  · exact iff_of_true rfl (.inl htarget)
  · exact iff_of_true rfl (.inr hlong)
  · exact iff_of_false not_false (not_or_intro htarget hlong)

theorem decodeUid_eq_some {d u : List Byte} (h : decodeUid d = some u) :
    (at8 d 5).toNat ≤ 7 ∧
      u = slice d 6 (6 + (at8 d 5).toNat) ++ List.replicate (7 - (at8 d 5).toNat) 0 := by
  rw [decodeUid] at h
  split_ifs at h with htarget hlong
  exact ⟨not_lt.1 hlong, (Option.some.inj h).symm⟩

theorem getElem?_slice (b : List Byte) {a n k : Nat} (h : a + k < n) : (slice b a n)[k]? = b[a + k]? := by
  rw [slice, List.getElem?_take_of_lt (by omega), List.getElem?_drop]

section
variable {d u : List Byte} (h : decodeUid d = some u) (hlen : d.length = 19)
include h hlen

theorem length_of_decodeUid : u.length = 7 := by
  obtain ⟨hn, rfl⟩ := decodeUid_eq_some h
  rw [List.length_append, slice_length (by omega), List.length_replicate]
  omega

/-- A byte of the UID is one of the payload's below `n` and one of the padding from there on. -/
theorem getElem?_of_decodeUid {k : Nat} (hk : k < 7) :
    u[k]? = if k < (at8 d 5).toNat then d[6 + k]? else some 0 := by
  obtain ⟨hn, rfl⟩ := decodeUid_eq_some h
  have hslice : (slice d 6 (6 + (at8 d 5).toNat)).length = (at8 d 5).toNat := by
    rw [slice_length (by omega), Nat.add_sub_cancel_left]
  split_ifs with hbyte
  · rw [List.getElem?_append_left (by omega), getElem?_slice d (by omega)]
  · rw [List.getElem?_append_right (by omega), List.getElem?_replicate_of_lt (by omega)]

end

/-- Settles O60: the two conditions under which no UID is read, and a UID byte by byte. -/
theorem uidIsZeroPadded : Obligations.UidIsZeroPadded := by
  refine ⟨rfl, fun d hlen => ⟨decodeUid d, decodePayload_of_length_eq (by decide) hlen, ?_, fun u hu =>
    ⟨length_of_decodeUid hu hlen, fun k hk => getElem?_of_decodeUid hu hlen hk⟩⟩⟩
  rw [decodeUid_eq_none_iff, ne_eq, ne_eq, getElem?_eq_some_iff_at8 (by omega)]

end Sys2Proof.Machine
end

section
/-! The answers of NBEGIN and NNEXT that yield no record (44_ndef_parser.md R256 to R263): the binding of an input (O30), END
(O31), the blank tag (O33), the start of the NDEF content (O34), and the input without an NDEF TLV (O35). -/

namespace Sys2Proof.Machine

/-! ## NBEGIN (R257) -/

theorem nbegin_next {n : Nat} {s t : State} : exec (.nbegin n) s = .next t ↔
    s.status.busy = false ∧ n ≤ s.cfg.ninCap ∧ t = finish { clearRecord (accept (.nbegin n) s) with
      nlen := toReg20 n, ncur := 0, nstate := .fresh, nitem := .none } := by
  refine whenIdle_next.trans (and_congr_right fun _ => ?_)
  by_cases hn : n ≤ s.cfg.ninCap
  · rw [if_neg (Nat.not_lt.2 hn)]
    exact ⟨fun h => ⟨hn, (Host.Outcome.next.inj h).symm⟩, fun ⟨_, ht⟩ => congrArg _ ht.symm⟩
  · rw [if_pos (Nat.not_le.1 hn)]
    exact ⟨nofun, fun ⟨hle, _⟩ => absurd hle hn⟩

/-- Settles O30: acceptance, the parser's registers, and `finish()`. -/
theorem nbeginBindsTheInput : Obligations.NbeginBindsTheInput := by
  rintro n s ⟨hb, -, hlatch⟩ hn
  have hlastop : (encode (.nbegin n)).setWidth 4 = 8 := lastop_encode (.nbegin n)
  rw [nbegin_next.2 ⟨hb, hn, rfl⟩, hlatch]
  simp only [accept, acceptWord, acceptStatus, hlastop]
  rfl

/-! ## END (R258, R259) -/

theorem recordStep_of_exhausted {s : State} (h : s.nlen.toNat ≤ s.ncur.toNat) : recordStep s = .next (outEnd s) :=
  if_pos (Nat.sub_eq_zero_of_le h)

/-- Settles O31: in COMPLETE, and in READING with no input left, NNEXT is acceptance and `OutEnd()`. -/
theorem nnextAtTheEndYieldsEnd : Obligations.NnextAtTheEndYieldsEnd := by
  rintro s ⟨hb, -, hlatch⟩ hend
  have hexec : exec .nnext s = .next (outEnd (accept .nnext s)) := by
    rcases hend with hc | ⟨hr, hout⟩
    · exact nnext_of_complete hb hc
    · exact (nnext_of_reading hb hr).trans (recordStep_of_exhausted hout)
  rw [hexec, hlatch]
  rfl

/-! ## The start of the NDEF content (R261, R263) -/

/-- On a tag that is not blank and has no 0x03 at byte 0, byte 5 decides (R261, R262). -/
theorem freshStep_of_byte5 {s : State} {b5 : Option Byte} (hnb : s.notBlank) (h0 : ¬ s.byteIs 0 (some 0x03))
    (h5 : s.byteIs 5 b5) :
    freshStep s = if b5 = some 0x03 then recordStep (startReading 7 s) else noTlv s := by
  rw [freshStep_of_notBlank hnb h0, inputByte_next.2 h5, andThen_of_next]

theorem nnext_of_busy {s : State} (hb : s.status.busy = true) : exec .nnext s = .refused .busyWrite :=
  whenIdle_of_busy hb

/-- Settles O34: acceptance and the start of reading write different registers, so their order does not matter. -/
theorem tlvStartHeuristic : Obligations.TlvStartHeuristic := by
  intro s hn
  cases hb : s.status.busy with
  | true =>
    rw [nnext_of_busy hb]
    exact ⟨fun _ => .symm (nnext_of_busy hb), fun _ _ _ => .symm (nnext_of_busy hb)⟩
  | false =>
    rw [nnext_of_fresh hb hn]
    refine ⟨fun h0 => ?_, fun hnb h0 h5 => ?_⟩
    · rw [freshStep_of_byte0 (s := accept .nnext s) h0]
      exact (nnext_of_reading (s := { s with ncur := 2, nstate := .reading }) hb rfl).symm
    · rw [freshStep_of_byte5 (s := accept .nnext s) hnb h0 h5, if_pos rfl]
      exact (nnext_of_reading (s := { s with ncur := 7, nstate := .reading }) hb rfl).symm

/-! ## No NDEF TLV (R262) -/

/-- Settles O35: with 0x03 at neither place the fresh step does what NO_TLV_ACTION says. -/
theorem noTlvFoundFollowsTheParameter : Obligations.NoTlvFoundFollowsTheParameter := by
  rintro s b5 ⟨hb, -, -⟩ hn hnb h0 h5 hne
  rw [nnext_of_fresh hb hn, freshStep_of_byte5 (s := accept .nnext s) hnb h0 h5, if_neg hne]
  refine ⟨fun hcfg => ⟨outEnd (accept .nnext s), ?_, rfl, rfl, rfl, rfl⟩, fun hcfg => ?_⟩ <;>
    simp only [noTlv, accept_cfg, hcfg]

/-! ## The blank tag (R260) -/

theorem freshStep_of_blank {s : State} (h : ∀ k < 4, s.byteIs k (some 0xFF)) :
    freshStep s = .next (outError .notFormatted s) := by
  rw [freshStep, blankFrom_true 4 0 (by simpa using h), andThen_of_next, if_pos rfl]

/-- Only bytes that are all 0xFF are blank. -/
theorem byteIs_of_blankFrom {s : State} (n : Nat) : ∀ i : Nat, blankFrom i n s = .next true →
    ∀ k < n, s.byteIs (i + k) (some 0xFF) := by
  induction n with
  | zero => intro i _ k hk; omega
  | succ n ih =>
    intro i h k hk
    rw [blankFrom] at h
    obtain ⟨b, hb, h⟩ := andThen_next.1 h
    split at h
    · next hff =>
      cases k with
      | zero => exact hff ▸ inputByte_next.1 hb
      | succ k => rw [show i + (k + 1) = i + 1 + k by omega]; exact ih (i + 1) h k (by omega)
    · cases h

/-- A fresh step that answers over fewer than 4 bytes goes on to find the content: byte 3 is ABSENT (R252). -/
theorem findContent_of_short {s t : State} (hshort : s.nlen.toNat < 4) (h : freshStep s = .next t) :
    findContent s = .next t := by
  obtain ⟨blank, hblank, h⟩ := andThen_next.1 h
  cases blank with
  | false => exact h
  | true =>
    have h3 : s.byteIs 3 (some 0xFF) := by simpa using byteIs_of_blankFrom 4 0 hblank 3 (by omega)
    simp [State.byteIs, show ¬ 3 < s.nlen.toNat by omega] at h3

theorem recordStep_err {s t : State} (h : recordStep s = .next t) : t.status.err ≠ .notFormatted := by
  rcases recordStep_next h with ⟨-, rfl⟩ | ⟨e, he, rfl⟩ | ⟨kind, -, r, -, -, -, -, rfl⟩
  · simp [finishStatus]
  · rintro rfl
    simp at he
  · simp [finishStatus]

theorem findContent_err {s t : State} (h : findContent s = .next t) : t.status.err ≠ .notFormatted := by
  obtain ⟨b0, -, h⟩ := andThen_next.1 h
  split at h
  · exact recordStep_err h
  · obtain ⟨b5, -, h⟩ := andThen_next.1 h
    split at h
    · exact recordStep_err h
    · unfold noTlv at h
      split at h
      · obtain ⟨⟩ := h
        simp [finishStatus]
      · contradiction

/-- Settles O33: four bytes read as 0xFF, and for short inputs an answer that comes from the content step. -/
theorem blankTagIsNotFormatted : Obligations.BlankTagIsNotFormatted := by
  refine ⟨?_, ?_⟩
  · rintro s ⟨hb, -, hlatch⟩ hn hlen hread
    have hblank : ∀ k < 4, s.byteIs k (some 0xFF) := fun k hk => by
      have hbyte := ((readBytes_eq_some 4 s.nin 0 _).1 hread).2 k hk
      rw [State.byteIs, if_pos (by omega), ← Nat.zero_add k, hbyte]
      interval_cases k <;> exact ⟨rfl, rfl⟩
    rw [nnext_of_fresh hb hn, freshStep_of_blank (s := accept .nnext s) hblank, hlatch]
    rfl
  · rintro s t ⟨hb, -, -⟩ hn hshort h
    rw [nnext_of_fresh hb hn] at h
    exact findContent_err (findContent_of_short (s := accept .nnext s) hshort h)

end Sys2Proof.Machine
end

section
/-! NNEXT in READING with input left (44_ndef_parser.md R264 to R276): the record at the cursor (O36), and the truncated
record and the bad text (O37). -/

namespace Sys2Proof.Machine

/-! ## The record step by the header read -/

/-- With a written header inside the input, the record step goes on by the record `recordOf` describes (R267). -/
theorem recordStep_of_written {s : State} {h : List Byte} (hread : readBytes s.nin s.ncur.toNat h.length = some h)
    (hlen : h.length = headerLen (at8 h 0)) (hin : s.ncur.toNat + h.length ≤ s.nlen.toNat) :
    recordStep s = if remaining s s.ncur.toNat < recTotal (recordOf s.ncur.toNat h) then
      .next (outError .underflowPayload s) else recordBody (recordOf s.ncur.toNat h) s := by
  have hge := headerLen_ge (at8 h 0)
  rw [recordStep_of_header (readByte_of_readBytes hread 0 (by omega)) (by omega), readHeader_eq_recordOf hread hlen,
    andThen_of_next]

/-- NNEXT in READING over a whole record with a written header comes to the record's body (R267). -/
theorem nnext_of_whole_record {s : State} {h : List Byte} (hb : s.status.busy = false) (hn : s.nstate = .reading)
    (hread : readBytes s.nin s.ncur.toNat h.length = some h) (hlen : h.length = headerLen (at8 h 0))
    (hin : s.ncur.toNat + recTotal (recordOf s.ncur.toNat h) ≤ s.nlen.toNat) :
    exec .nnext s = recordBody (recordOf s.ncur.toNat h) (accept .nnext s) := by
  have htotal : h.length ≤ recTotal (recordOf s.ncur.toNat h) := by
    rw [recTotal, show (recordOf s.ncur.toNat h).hlen = h.length from rfl]
    omega
  rw [nnext_of_reading hb hn, recordStep_of_written (s := accept .nnext s) hread hlen
    ((Nat.add_le_add_left htotal _).trans hin)]
  exact if_neg (Nat.not_lt.2 (Nat.le_sub_of_add_le' hin))

theorem recordStep_of_truncated_header {s : State} {f : Byte} (hf : readByte s.nin s.ncur.toNat = some f)
    (hin : s.ncur.toNat < s.nlen.toNat) (hshort : s.nlen.toNat < s.ncur.toNat + headerLen f) :
    recordStep s = .next (outError .underflowHeader s) := by
  have hrem : remaining s s.ncur.toNat ≠ 0 := by rw [remaining]; omega
  have hhead : remaining s s.ncur.toNat < headerLen f := by rw [remaining]; omega
  simp only [recordStep, if_neg hrem, hf, written_some, andThen_of_next, if_pos hhead]

/-! ## The record body (R269 to R272) -/

theorem mimeBody_of_written {r : Record} {s : State} {ty val : List Byte}
    (hty : readBytes s.nin (recTypeOff r) r.tlen = some ty) (hval : readBytes s.nin (recValOff r) r.plen = some val) :
    mimeBody r s = if utf8 ty && utf8 val then .next (outRecord .mimeMedia r s) else .next (outError .utf8 s) := by
  simp only [mimeBody, inputBytes, hty, hval, written_some, andThen_of_next]

/-- A record whose text, if it has any, is UTF-8 is yielded with the kind of its TNF. -/
theorem recordBody_of_text {r : Record} {s : State}
    (htext : kindOfTnf (tnf r.flags) = .mimeMedia → ∃ ty val, readBytes s.nin (recTypeOff r) r.tlen = some ty ∧
      readBytes s.nin (recValOff r) r.plen = some val ∧ utf8 ty = true ∧ utf8 val = true) :
    recordBody r s = .next (outRecord (kindOfTnf (tnf r.flags)) r s) := by
  by_cases h2 : tnf r.flags = 2
  · obtain ⟨ty, val, hty, hval, hutf, hutf'⟩ := htext (by rw [h2]; rfl)
    rw [recordBody_mime h2, mimeBody_of_written hty hval, hutf, hutf', h2]
    rfl
  · unfold recordBody kindOfTnf
    split
    · next h0 => rw [h0]; rfl
    · contradiction
    · next h5 => rw [h5]; rfl
    · next h0 _ h5 => rw [if_neg h0, if_neg h2, if_neg h5]

/-- Settles O36: the record step reads the header and the body, and `OutRecord` writes what it found. -/
theorem nnextYieldsTheRecord : Obligations.NnextYieldsTheRecord := by
  rintro s h ⟨hb, -, hlatch⟩ hn cur r kind hread hlen hin htext
  rw [nnext_of_whole_record hb hn hread hlen hin, recordBody_of_text (s := accept .nnext s) htext]
  simp only [outRecord, accept_nstate, hn, hlatch, decide_eq_true_eq]
  rfl

/-! ## Errors (R276) -/

/-- The flags byte is the first of the header read. -/
theorem at8_zero_of_readBytes {m : Memory} {a n : Nat} {f : Byte} {h : List Byte} (hf : readByte m a = some f)
    (hread : readBytes m a n = some h) (hn : 0 < n) : at8 h 0 = f := by
  have hlen := readBytes_length hread
  subst hlen
  exact Option.some.inj ((readByte_of_readBytes hread 0 hn).symm.trans hf)

/-- Settles O37: each failure is the record step's own check, and `OutError` leaves the same registers for all three. -/
theorem nnextReportsTruncationAndBadText : Obligations.NnextReportsTruncationAndBadText := by
  rintro s f ⟨hb, -, -⟩ hn cur hf hin failsWith
  have hfails : ∀ e, exec .nnext s = .next (outError e (accept .nnext s)) → failsWith e := fun e he =>
    ⟨_, he, rfl, rfl, rfl, rfl, rfl, rfl, rfl, rfl, rfl, ⟨rfl, rfl, rfl, rfl⟩, rfl,
      ⟨rfl, rfl, rfl, rfl, rfl, rfl⟩, rfl⟩
  refine ⟨fun hshort => hfails _ ?_, fun h hread hhead => ?_⟩
  · rw [nnext_of_reading hb hn]
    exact recordStep_of_truncated_header (s := accept .nnext s) hf hin hshort
  · have hge := headerLen_ge f
    obtain rfl : at8 h 0 = f := at8_zero_of_readBytes hf hread (by omega)
    have hlen : h.length = headerLen (at8 h 0) := readBytes_length hread
    rw [← hlen] at hread hhead
    refine ⟨fun hshort => hfails _ ?_, fun hwhole htnf ty val hty hval hbad => hfails _ ?_⟩
    · rw [nnext_of_reading hb hn, recordStep_of_written (s := accept .nnext s) hread hlen hhead]
      exact if_pos (Nat.sub_lt_left_of_lt_add hin.le hshort)
    · rw [nnext_of_whole_record hb hn hread hlen hwhole, recordBody_mime htnf,
        mimeBody_of_written (s := accept .nnext s) hty hval, if_neg (by simpa using hbad)]

end Sys2Proof.Machine
end

section
/-! What every NBEGIN and NNEXT has in common: what they leave alone (44_ndef_parser.md R256; O41), and how far each NNEXT
moves the cursor (R273, R279; O39). -/

namespace Sys2Proof.Machine

/-! ## The frame (R256) -/

/-- `t` is what one of the parser's outputs (R254) leaves of `s`: the command has ended, and besides STATUS and the latch
only the NRP's registers may have changed. -/
structure State.NrpEnds (s t : State) : Prop where
  busy : t.status.busy = false
  done : t.status.done = true
  phase : s.status.phase = .idle → t.status.phase = .idle
  cmd : t.cmd = s.cmd
  fcu : s.sameFcu t
  own : s.sameOwn t
  nin : t.nin = s.nin
  latch : t.latch = none
  draws : t.draws = s.draws

theorem finish_nrpEnds (s : State) : s.NrpEnds (finish s) :=
  ⟨rfl, rfl, fun _ => rfl, rfl, ⟨rfl, rfl, rfl, rfl, rfl, rfl⟩, ⟨rfl, rfl, rfl⟩, rfl, rfl, rfl⟩

theorem raiseErr_nrpEnds (e : ErrCode) (s : State) : s.NrpEnds (raiseErr e s) :=
  ⟨rfl, rfl, id, rfl, ⟨rfl, rfl, rfl, rfl, rfl, rfl⟩, ⟨rfl, rfl, rfl⟩, rfl, rfl, rfl⟩

theorem outEnd_nrpEnds (s : State) : s.NrpEnds (outEnd s) :=
  { finish_nrpEnds s with }

theorem outError_nrpEnds (e : ErrCode) (s : State) : s.NrpEnds (outError e s) :=
  { raiseErr_nrpEnds e s with }

theorem recordStep_nrpEnds {s t : State} (h : recordStep s = .next t) : s.NrpEnds t := by
  rcases recordStep_next h with ⟨-, rfl⟩ | ⟨e, -, rfl⟩ | ⟨kind, -, r, -, -, -, -, rfl⟩
  · exact outEnd_nrpEnds s
  · exact outError_nrpEnds e s
  · exact { finish_nrpEnds s with }

theorem nextItem_nrpEnds {s t : State} (h : nextItem s = .next t) : s.NrpEnds t := by
  unfold nextItem at h
  split at h
  · obtain ⟨⟩ := h
    exact outEnd_nrpEnds s
  · rcases freshStep_next h with rfl | ⟨off, -, h⟩ | ⟨-, rfl⟩
    · exact outError_nrpEnds _ s
    · exact { recordStep_nrpEnds h with }
    · exact outEnd_nrpEnds s
  · exact recordStep_nrpEnds h

theorem nnext_next {s t : State} (h : exec .nnext s = .next t) : nextItem (accept .nnext s) = .next t :=
  (whenIdle_next.1 h).2

theorem exec_nrpEnds {i : Instr} {s t : State} (hi : i = .nnext ∨ ∃ n, i = .nbegin n) (h : exec i s = .next t) :
    (accept i s).NrpEnds t := by
  rcases hi with rfl | ⟨n, rfl⟩
  · exact nextItem_nrpEnds (nnext_next h)
  · obtain ⟨-, -, rfl⟩ := nbegin_next.1 h
    exact { finish_nrpEnds (accept (.nbegin n) s) with }

/-- Settles O41: acceptance of a parser's command leaves the FCU alone, and so does its output. -/
theorem nrpCommandsLeaveTheRestAlone : Obligations.NrpCommandsLeaveTheRestAlone := by
  rintro i s t hi ⟨-, -, hlatch⟩ h
  have hends := exec_nrpEnds hi h
  have hparser : usesTransport i = false ∧ clearsResult i = false := by
    rcases hi with rfl | ⟨n, rfl⟩ <;> exact ⟨rfl, rfl⟩
  have hfcu : s.sameFcu t := by simpa [State.sameFcu, hparser] using hends.fcu
  exact ⟨hends.busy, hends.done, hends.phase rfl, hends.cmd, hfcu, hends.own, hends.nin,
    hends.latch.trans hlatch.symm, hends.draws⟩

/-! ## The advance of the cursor (R273, R274) -/

/-- The parser comes to COMPLETE within `k` more items: it is there, or less than `3 * k` bytes are left from the cursor,
each record taking at least 3. -/
def State.EndsWithin (k : Nat) (s : State) : Prop :=
  s.nstate = .complete ∨
    ((s.nstate = .fresh → s.ncur = 0) ∧ s.ncur.toNat ≤ s.nlen.toNat ∧ s.nlen.toNat < s.ncur.toNat + 3 * k)

theorem State.EndsWithin.complete {s : State} (h : s.EndsWithin 0) : s.nstate = .complete := by
  rcases h with hc | ⟨-, hle, hlt⟩
  · exact hc
  · omega

/-- A record step in READING ends the parse, or takes at least 3 bytes of the input. -/
theorem recordStep_endsWithin {s t : State} {k : Nat} (hn : s.nstate = .reading)
    (hlt : s.nlen.toNat < s.ncur.toNat + 3 * (k + 1)) (h : recordStep s = .next t) : t.EndsWithin k := by
  rcases recordStep_next h with ⟨-, rfl⟩ | ⟨e, -, rfl⟩ | ⟨kind, -, r, hcur, -, hhlen, hfit, rfl⟩
  · exact .inl rfl
  · exact .inl rfl
  · have hge : 3 ≤ recTotal r := by
      have := headerLen_ge r.flags
      rw [recTotal]
      omega
    have hbound := s.nlen.isLt
    rw [remaining] at hfit
    have hnext := toReg20_toNat (n := r.cur + recTotal r) (by omega)
    refine .inr ⟨fun hfresh => ?_, ?_, ?_⟩
    · rw [outRecord_nstate, hn] at hfresh
      split at hfresh <;> contradiction
    · rw [outRecord_ncur, outRecord_nlen, hnext]
      omega
    · rw [outRecord_ncur, outRecord_nlen, hnext]
      omega

theorem nnext_endsWithin {s t : State} {k : Nat} (hs : s.EndsWithin (k + 1)) (h : exec .nnext s = .next t) :
    t.EndsWithin k := by
  have hitem := nnext_next h
  unfold nextItem at hitem
  split at hitem
  · obtain ⟨⟩ := hitem
    exact .inl rfl
  · next hf =>
    rcases hs with hc | ⟨hcur, -, hlt⟩
    · cases hf.symm.trans hc
    · rcases freshStep_next hitem with rfl | ⟨off, -, hrec⟩ | ⟨-, rfl⟩
      · exact .inl rfl
      · rw [hcur hf] at hlt
        exact recordStep_endsWithin (s := startReading off (accept .nnext s)) rfl (hlt.trans_le (by simp)) hrec
      · exact .inl rfl
  · next hr =>
    rcases hs with hc | ⟨-, -, hlt⟩
    · cases hr.symm.trans hc
    · exact recordStep_endsWithin hr hlt hitem

theorem nnextTimes_complete {t : State} (k : Nat) : ∀ s : State, s.EndsWithin k → nnextTimes k s = .next t →
    t.nstate = .complete := by
  induction k with
  | zero =>
    rintro s hs ⟨⟩
    exact hs.complete
  | succ k ih =>
    intro s hs h
    obtain ⟨u, hu, h⟩ := andThen_next.1 h
    exact ih u (nnext_endsWithin hs hu) h

/-- Settles O39: after NBEGIN of `n` bytes the parse ends within `n / 3 + 1` items, since `n < 3 * (n / 3 + 1)`. -/
theorem parseEndsWithinTheInput : Obligations.ParseEndsWithinTheInput := by
  intro n s s0 t hcfg hbegin h
  obtain ⟨-, hn, rfl⟩ := nbegin_next.1 hbegin
  have hcap : s.cfg.ninCap ≤ 1048575 := hcfg.2.1.2
  have hnlen := toReg20_toNat (n := n) (by omega)
  refine nnextTimes_complete _ _ (.inr ⟨fun _ => rfl, Nat.zero_le _, ?_⟩) h
  simp only [finish_nlen, finish_ncur, hnlen]
  omega

end Sys2Proof.Machine
end

section
/-! What NNEXT looks at (44_ndef_parser.md R250, R279; O40): two blocks that agree on the bytes below NLEN, the cursor, NSTATE
and NO_TLV_ACTION read the same, decide the same and answer alike, part by part. -/

namespace Sys2Proof.Machine

/-! ## Answers alike -/

/-- Two outcomes that stop for the same reason, or answer with the same NRP registers and STATUS. -/
inductive NrpAlike : Result State → Result State → Prop where
  | next {s t : State} (hnrp : s.sameNrp t) (hstatus : t.status = s.status) : NrpAlike (.next s) (.next t)
  | fault (f : Fault) : NrpAlike (.fault f) (.fault f)
  | refused (r : Refusal) : NrpAlike (.refused r) (.refused r)

/-- Parts that go on alike from one common part. -/
theorem NrpAlike.andThen {α : Type} {o : Result α} {k k' : α → Result State}
    (h : ∀ a, o = .next a → NrpAlike (k a) (k' a)) : NrpAlike (andThen o k) (andThen o k') := by
  cases o with
  | next a => exact h a rfl
  | fault f => exact .fault f
  | refused r => exact .refused r

/-- What it is to stop alike and to answer alike, outcome by outcome. -/
theorem NrpAlike.outcomes {o o' : Result State} (h : NrpAlike o o') : (∀ f, o = .fault f ↔ o' = .fault f) ∧
    (∀ r, o = .refused r ↔ o' = .refused r) ∧
    ∀ s, o = .next s → ∃ t, o' = .next t ∧ s.sameNrp t ∧ t.status = s.status := by
  cases h with
  | next hnrp hstatus =>
    refine ⟨fun f => ⟨nofun, nofun⟩, fun r => ⟨nofun, nofun⟩, ?_⟩
    rintro s ⟨⟩
    exact ⟨_, rfl, hnrp, hstatus⟩
  | fault f => exact ⟨fun _ => .rfl, fun r => ⟨nofun, nofun⟩, fun _ => nofun⟩
  | refused r => exact ⟨fun f => ⟨nofun, nofun⟩, fun _ => .rfl, fun _ => nofun⟩

/-! ## Reading the same input -/

/-- Two blocks the parser cannot tell apart while NNEXT runs: they agree as `sameParse` says, and in the whole of STATUS. -/
structure State.Twins (s t : State) : Prop where
  byte : ∀ k < s.nlen.toNat, readByte t.nin k = readByte s.nin k
  nlen : t.nlen = s.nlen
  ncur : t.ncur = s.ncur
  nstate : t.nstate = s.nstate
  action : t.cfg.noTlvAction = s.cfg.noTlvAction
  status : t.status = s.status

theorem accept_twins {s t : State} (h : s.sameParse t) : (accept .nnext s).Twins (accept .nnext t) := by
  obtain ⟨hbyte, hnlen, hncur, hnstate, haction, hbusy⟩ := h
  exact ⟨fun k hk => (hbyte k hk).symm, hnlen.symm, hncur.symm, hnstate.symm, haction.symm,
    by simp [acceptStatus, hbusy]⟩

/-- A range is read alike in two memories that agree on it. -/
theorem readBytes_congr {m m' : Memory} {a : Nat} (n : Nat) (h : ∀ k < n, readByte m (a + k) = readByte m' (a + k)) :
    readBytes m a n = readBytes m' a n := by
  ext l
  rw [readBytes_eq_some, readBytes_eq_some]
  exact and_congr_right fun _ => forall₂_congr fun k hk => by rw [h k hk]

namespace State.Twins

variable {s t : State}

theorem inputByte (h : s.Twins t) (i : Nat) : inputByte t i = inputByte s i := by
  unfold Machine.inputByte
  rw [h.nlen]
  split
  · next hi => rw [h.byte i hi]
  · rfl

theorem inputBytes (h : s.Twins t) {a n : Nat} (hin : a + n ≤ s.nlen.toNat) : inputBytes t a n = inputBytes s a n := by
  rw [Machine.inputBytes, Machine.inputBytes, readBytes_congr n fun k hk => h.byte _ (by omega)]

theorem readPlen (h : s.Twins t) {f : Byte} {cur : Nat} (hin : cur + headerLen f ≤ s.nlen.toNat) :
    readPlen f cur t = readPlen f cur s := by
  rw [headerLen_eq, plenWidth] at hin
  unfold Machine.readPlen
  split
  · next hsr => rw [if_pos hsr] at hin; rw [h.inputBytes (by omega)]
  · next hsr => rw [if_neg hsr] at hin; rw [h.inputBytes (by omega)]

theorem readIdlen (h : s.Twins t) {f : Byte} {cur : Nat} (hin : cur + headerLen f ≤ s.nlen.toNat) :
    readIdlen f cur t = readIdlen f cur s := by
  have hge := headerLen_ge f
  rw [Machine.readIdlen, Machine.readIdlen, h.byte _ (by omega)]

theorem readHeader (h : s.Twins t) {f : Byte} {cur : Nat} (hin : cur + headerLen f ≤ s.nlen.toNat) :
    readHeader f cur t = readHeader f cur s := by
  have hge := headerLen_ge f
  rw [Machine.readHeader, Machine.readHeader, h.byte _ (by omega), h.readPlen hin, h.readIdlen hin]

theorem startReading (h : s.Twins t) (off : Nat) : (startReading off s).Twins (startReading off t) :=
  { h with ncur := rfl, nstate := rfl }

/-! ## Answering alike -/

theorem outEnd (h : s.Twins t) : NrpAlike (.next (outEnd s)) (.next (outEnd t)) :=
  .next ⟨rfl, h.ncur, h.nlen, rfl, rfl, rfl, rfl, rfl, rfl, rfl⟩ (congrArg finishStatus h.status)

theorem outError (h : s.Twins t) (e : ErrCode) : NrpAlike (.next (outError e s)) (.next (outError e t)) :=
  .next ⟨rfl, h.ncur, h.nlen, rfl, rfl, rfl, rfl, rfl, rfl, rfl⟩ (congrArg (raiseStatus e) h.status)

theorem outRecord (h : s.Twins t) (kind : RecKind) (r : Record) :
    NrpAlike (.next (outRecord kind r s)) (.next (outRecord kind r t)) := by
  refine .next ⟨?_, rfl, h.nlen, rfl, rfl, rfl, rfl, rfl, rfl, rfl⟩ (congrArg finishStatus h.status)
  rw [outRecord_nstate, outRecord_nstate, h.nstate]

theorem mimeBody (h : s.Twins t) {r : Record} (hin : r.cur + recTotal r ≤ s.nlen.toNat) :
    NrpAlike (mimeBody r s) (mimeBody r t) := by
  rw [recTotal] at hin
  unfold Machine.mimeBody
  rw [h.inputBytes (by rw [recTypeOff]; omega), h.inputBytes (by rw [recValOff]; omega)]
  refine .andThen fun ty _ => .andThen fun val _ => ?_
  split
  · exact h.outRecord _ r
  · exact h.outError _

theorem recordBody (h : s.Twins t) {r : Record} (hin : r.cur + recTotal r ≤ s.nlen.toNat) :
    NrpAlike (recordBody r s) (recordBody r t) := by
  unfold Machine.recordBody
  split
  · exact h.outRecord _ r
  · exact h.mimeBody hin
  · exact h.outRecord _ r
  · exact h.outRecord _ r

theorem recordStep (h : s.Twins t) : NrpAlike (recordStep s) (recordStep t) := by
  unfold Machine.recordStep
  dsimp only
  have hrem : remaining t s.ncur.toNat = remaining s s.ncur.toNat := by rw [remaining, remaining, h.nlen]
  rw [h.ncur, hrem]
  split
  · exact h.outEnd
  · next hleft =>
    rw [remaining] at hleft
    rw [h.byte _ (by omega)]
    refine .andThen fun f _ => ?_
    split
    · exact h.outError _
    · next hhead =>
      rw [remaining] at hhead
      have hge := headerLen_ge f
      rw [h.readHeader (by omega)]
      refine .andThen fun r hr => ?_
      obtain ⟨hcur, -, -⟩ := readHeader_next hr
      split
      · exact h.outError _
      · next hfit =>
        rw [remaining] at hfit
        exact h.recordBody (by omega)

theorem blankFrom (h : s.Twins t) (n : Nat) : ∀ i : Nat, blankFrom i n t = blankFrom i n s := by
  induction n with
  | zero => intro i; rfl
  | succ n ih => intro i; simp only [Machine.blankFrom, h.inputByte, ih]

theorem noTlv (h : s.Twins t) : NrpAlike (noTlv s) (noTlv t) := by
  unfold Machine.noTlv
  rw [h.action]
  split
  · exact h.outEnd
  · exact .refused _

theorem findContent (h : s.Twins t) : NrpAlike (findContent s) (findContent t) := by
  unfold Machine.findContent
  rw [h.inputByte 0, h.inputByte 5]
  refine .andThen fun b0 _ => ?_
  split
  · exact (h.startReading 2).recordStep
  · refine .andThen fun b5 _ => ?_
    split
    · exact (h.startReading 7).recordStep
    · exact h.noTlv

theorem freshStep (h : s.Twins t) : NrpAlike (freshStep s) (freshStep t) := by
  unfold Machine.freshStep
  rw [h.blankFrom]
  refine .andThen fun blank _ => ?_
  split
  · exact h.outError _
  · exact h.findContent

theorem nextItem (h : s.Twins t) : NrpAlike (nextItem s) (nextItem t) := by
  unfold Machine.nextItem
  rw [h.nstate]
  split
  · exact h.outEnd
  · exact h.freshStep
  · exact h.recordStep

end State.Twins

theorem nnext_of_idle {s : State} (hb : s.status.busy = false) : exec .nnext s = nextItem (accept .nnext s) :=
  whenIdle_of_idle hb

theorem nnext_nrpAlike {s t : State} (h : s.sameParse t) : NrpAlike (exec .nnext s) (exec .nnext t) := by
  have ⟨_, _, _, _, _, hbusy⟩ := h
  cases hb : s.status.busy with
  | true =>
    rw [nnext_of_busy hb, nnext_of_busy (hbusy ▸ hb)]
    exact .refused _
  | false =>
    rw [nnext_of_idle hb, nnext_of_idle (hbusy ▸ hb)]
    exact (accept_twins h).nextItem

/-- Settles O40: twins answer alike at every part of NNEXT. -/
theorem nnextDependsOnItsInputAlone : Obligations.NnextDependsOnItsInputAlone :=
  fun _ _ h => (nnext_nrpAlike h).outcomes

end Sys2Proof.Machine
end

section
/-! A word no row of the opcode table allows, written to CMD (60_exceptions.md R311; O7). -/

namespace Sys2Proof.Machine

theorem writeCmd_of_illegal {w : Word} {e : IllegalWord} (h : decode w = .error e) (s : State) :
    writeCmd w s = acceptIllegal w s := by
  simp only [writeCmd, h]

theorem acceptIllegal_of_idle {s : State} (hb : s.status.busy = false) (w : Word) :
    acceptIllegal w s = .next (raiseErr .illegalCommand (acceptWord w false s)) :=
  whenIdle_of_idle hb

/-- Acceptance makes PHASE idle, and the error keeps it; an idle block has no latch for the error to give up. -/
theorem raiseErr_acceptWord {s : State} (hlatch : s.latch = none) (e : ErrCode) (w : Word) (busy : Bool) :
    raiseErr e (acceptWord w busy s) = { s with
      cmd := w
      status := { busy := false, done := true, err := e, phase := .idle, lastop := w.setWidth 4 } } := by
  rw [raiseErr, ← hlatch]
  rfl

/-- Settles O7: the write is the acceptance of the word and, at once, its error. -/
theorem illegalWordFinishesAtOnce : Obligations.IllegalWordFinishesAtOnce := by
  rintro s w e ⟨hb, -, hlatch⟩ hdec
  rw [writeCmd_of_illegal hdec, acceptIllegal_of_idle hb, raiseErr_acceptWord hlatch]

end Sys2Proof.Machine
end

section
/-! The frame of the FCU and HSQ commands (70_reset_and_hazards.md R354 to R356, 20_memory.md R87; O42): what their
acceptance and every completion leave alone. Of the completions only that of a receive in RECV changes SCR or RESULT
(41_frame_codec.md R162, R166). -/

namespace Sys2Proof.Machine

/-- `t` is `s` but for what the FCU and HSQ may change after acceptance: besides the NRP's registers and the host's
memories CMD stays too, which acceptance has set. -/
def State.KeepsNrp (s t : State) : Prop :=
  s.sameNrp t ∧ s.sameOwn t ∧ t.stg = s.stg ∧ t.nin = s.nin ∧ t.cmd = s.cmd

/-- The response of the last command, SCR and RESULT, stays as well. -/
def State.KeepsResponse (s t : State) : Prop := s.KeepsNrp t ∧ t.scr = s.scr ∧ t.result = s.result

theorem State.KeepsNrp.refl (s : State) : s.KeepsNrp s :=
  ⟨⟨rfl, rfl, rfl, rfl, rfl, rfl, rfl, rfl, rfl, rfl⟩, ⟨rfl, rfl, rfl⟩, rfl, rfl, rfl⟩

theorem State.KeepsResponse.refl (s : State) : s.KeepsResponse s := ⟨.refl s, rfl, rfl⟩

/-! ## The operations between two calls (42_handshake.md R193) -/

theorem enterPhase_keepsResponse (p : Phase) (i : Instr) (s : State) : s.KeepsResponse (enterPhase p i s) := by
  cases p <;> exact .refl s

theorem advance_keepsResponse (i : Instr) (s : State) : s.KeepsResponse (advance i s) := by
  rcases advance_cases i s with heq | ⟨p, -, -, heq⟩
  · exact heq ▸ .refl s
  · exact heq ▸ enterPhase_keepsResponse p i s

theorem phaseSend_keepsNrp {cb : Byte} {plen : Nat} {s t : State} (h : phaseSend cb plen s = .next t) :
    s.KeepsNrp t := by
  rcases phaseSend_next.1 h with ⟨-, rfl⟩ | ⟨-, p, -, rfl⟩ <;> exact .refl s

/-! ## Completions -/

/-- The bytes of an ACK go to ACKCAP (41_frame_codec.md R152). -/
theorem ackReceived_keepsResponse (b : List Byte) (i : Instr) (s : State) : s.KeepsResponse (ackReceived b i s) := by
  unfold ackReceived
  split
  · exact .refl s
  · exact advance_keepsResponse i (setAckcap b s)

theorem frameReceived_keepsNrp (b : List Byte) (i : Instr) (s : State) : s.KeepsNrp (frameReceived b i s) := by
  unfold frameReceived
  cases validateFrame b with
  | error e => exact .refl s
  | ok r => exact (advance_keepsResponse i (setResult r.1 r.2 (writeScr b s))).1

/-- A completion leaves SCR and RESULT alone, or it is that of a receive outside ACK. -/
theorem complete_keeps {c : Completion} {s t : State} (h : complete c s = .next t) :
    s.KeepsResponse t ∨ (s.KeepsNrp t ∧ s.status.phase ≠ .ack ∧ ∃ n, s.pending = some (.recv n)) := by
  rcases complete_next h with ⟨-, rfl⟩ | ⟨call, l, hc, -, hcases⟩
  · exact .inl (.refl t)
  · rcases hcases with ⟨-, -, -, rfl⟩ | ⟨-, -, rfl⟩ | ⟨b, rfl, -, rfl⟩ | ⟨info, -, -, rfl⟩ | ⟨n, info, rfl, -, rfl⟩
    · exact .inl (advance_keepsResponse l.instr (takeCall s))
    · exact .inl (advance_keepsResponse l.instr (takeCall s))
    · by_cases hack : s.status.phase = .ack
      · rw [bytesReceived_of_ack (s := takeCall s) hack]
        exact .inl (ackReceived_keepsResponse b l.instr (takeCall s))
      · rw [bytesReceived, if_neg (by simpa using hack)]
        exact .inr ⟨frameReceived_keepsNrp b l.instr (takeCall s), hack, _, hc⟩
    · exact .inl (.refl s)
    · by_cases hack : s.status.phase = .ack
      · rw [receiveFailed_of_ack (s := takeCall s) hack]
        exact .inl (.refl s)
      · rw [receiveFailed_of_not_ack (s := takeCall s) hack]
        exact .inr ⟨.refl s, hack, _, hc⟩

/-- A receive is pending in ACK or RECV only (R193). -/
theorem State.portOk.phase_of_recv {s : State} {n : Nat} (h : s.portOk) (hc : s.pending = some (.recv n)) :
    s.status.phase = .ack ∨ s.status.phase = .recv := by
  rcases State.portOk_cases h with ⟨hnone, -⟩ | ⟨call, l, hc', -, -, -, -, -, -, -, hfits, -⟩
  · simp [hc] at hnone
  · obtain rfl : call = .recv n := Option.some.inj (hc'.symm.trans hc)
    exact (callFits_recv hfits).imp And.left And.left

/-! ## Acceptance -/

/-- After `accept` a command that uses the transport changes SCR and RESULT only to build a frame in SCR (R143). -/
theorem exec_keeps {i : Instr} {s t : State} (hi : usesTransport i = true) (h : exec i s = .next t) :
    (accept i s).KeepsNrp t ∧ (.send ∉ phasesOf i → (accept i s).KeepsResponse t) := by
  obtain ⟨-, -, ⟨hsend, ht⟩ | ⟨p, -, -, rfl⟩ | ⟨n, rfl, -, -⟩ | ⟨rfl, -⟩⟩ := exec_next h
  · exact ⟨phaseSend_keepsNrp ht, fun hno => absurd hsend hno⟩
  · have hkeeps := enterPhase_keepsResponse p i (accept i s)
    exact ⟨hkeeps.1, fun _ => hkeeps⟩
  · contradiction
  · contradiction

/-- Settles O42: acceptance by `exec_keeps`, WAITRDY and RDACK neither clearing RESULT nor sending; completions by
`complete_keeps`, a receive outside ACK being one in RECV. -/
theorem fcuCommandsLeaveTheNrpAlone : Obligations.FcuCommandsLeaveTheNrpAlone := by
  refine ⟨fun i s t hi h => ?_, fun c s t h => ?_⟩
  · obtain ⟨⟨hnrp, hown, hstg, hnin, -⟩, hresponse⟩ := exec_keeps hi h
    refine ⟨hnrp, hown, hstg, hnin, ?_⟩
    rintro (rfl | rfl) <;> exact (hresponse (by decide)).2
  · rcases complete_keeps h with ⟨⟨hnrp, hown, hstg, hnin, hcmd⟩, hresponse⟩ |
      ⟨⟨hnrp, hown, hstg, hnin, hcmd⟩, hack, n, hc⟩
    · exact ⟨hnrp, hown, hstg, hnin, hcmd, fun _ _ => hresponse⟩
    · exact ⟨hnrp, hown, hstg, hnin, hcmd, fun hrecv hport => absurd (hport.phase_of_recv hc) (by simp [hack, hrecv])⟩

end Sys2Proof.Machine
end

section
/-! Commands written while BUSY (70_reset_and_hazards.md R352; O8), and the reset input (R340 to R342; O50, O52). -/

namespace Sys2Proof.Machine

/-! ## A write to CMD while BUSY (R352) -/

/-- Every command is accepted through `whenIdle` before it looks at anything else (log 15). -/
theorem exec_of_busy {s : State} (hb : s.status.busy = true) (i : Instr) : exec i s = .refused .busyWrite := by
  cases i <;> exact whenIdle_of_busy hb

/-- Settles O8: a legal word is the command it decodes to, an illegal one is accepted through `whenIdle` too. -/
theorem cmdWriteWhileBusyIsRefused : Obligations.CmdWriteWhileBusyIsRefused := by
  refine fun s hb => ⟨fun w => ?_, exec_of_busy hb⟩
  cases hdec : decode w with
  | ok i => rw [writeCmd_of_decode hdec, exec_of_busy hb]
  | error e => exact (writeCmd_of_illegal hdec s).trans (whenIdle_of_busy hb)

/-! ## Reset (R340, R341) -/

theorem resetBlock_asReset (s : State) : (resetBlock s).asReset := resetState s.cfg

theorem readByte_resetBlock (s : State) (m : Space) (off : Nat) : readByte (spaceMem (resetBlock s) m) off = none := by
  cases m <;> rfl

/-- Settles O50: the state is that of `resetState`, not BUSY, and no byte of it is written. -/
theorem resetRestoresEverything : Obligations.ResetRestoresEverything :=
  fun s => ⟨resetBlock s, rfl, resetBlock_asReset s, rfl, rfl, fun m off hoff =>
    readMem_unwritten hoff (by simp) (readByte_resetBlock s m off)⟩

/-! ## The abandoned call (R342, 20_memory.md R99) -/

theorem complete_of_not_pending {s : State} (h : s.pending = none) (c : Completion) : complete c s = .next s := by
  unfold complete
  rw [h]
  cases s.latch <;> rfl

/-- Settles O52: after a reset no call is pending. -/
theorem resetAbandonsTheCall : Obligations.ResetAbandonsTheCall :=
  fun s c => ⟨complete_of_not_pending (resetBlock_pending s) c, rfl⟩

end Sys2Proof.Machine
end

section
/-! Every step keeps the parameters (00_scope.md R7 to R10; O56). Completions do by `complete_cfg`. -/

namespace Sys2Proof.Machine

theorem phaseSend_cfg {cb : Byte} {plen : Nat} {s t : State} (h : phaseSend cb plen s = .next t) : t.cfg = s.cfg := by
  rcases phaseSend_next.1 h with ⟨-, rfl⟩ | ⟨-, p, -, rfl⟩
  · rw [raiseErr_cfg, setPhase_cfg]
  · rw [issue_cfg, writeScr_cfg, latchPayload_cfg, setPhase_cfg]

theorem recordStep_cfg {s t : State} (h : recordStep s = .next t) : t.cfg = s.cfg := by
  rcases recordStep_next h with ⟨-, rfl⟩ | ⟨e, -, rfl⟩ | ⟨kind, -, r, -, -, -, -, rfl⟩
  · exact outEnd_cfg s
  · exact outError_cfg e s
  · exact outRecord_cfg kind r s

theorem freshStep_cfg {s t : State} (h : freshStep s = .next t) : t.cfg = s.cfg := by
  rcases freshStep_next h with rfl | ⟨off, -, h⟩ | ⟨-, rfl⟩
  · exact outError_cfg .notFormatted s
  · exact (recordStep_cfg h).trans (startReading_cfg off s)
  · exact outEnd_cfg s

theorem nextItem_cfg {s t : State} (h : nextItem s = .next t) : t.cfg = s.cfg := by
  unfold nextItem at h
  split at h
  · obtain ⟨⟩ := h
    exact outEnd_cfg s
  · exact freshStep_cfg h
  · exact recordStep_cfg h

theorem exec_cfg {i : Instr} {s t : State} (h : exec i s = .next t) : t.cfg = s.cfg := by
  rw [← accept_cfg i s]
  obtain ⟨-, -, ⟨-, ht⟩ | ⟨p, -, -, rfl⟩ | ⟨n, rfl, -, rfl⟩ | ⟨rfl, ht⟩⟩ := exec_next h
  · exact phaseSend_cfg ht
  · exact enterPhase_cfg p i (accept i s)
  · rw [finish_cfg, clearRecord_cfg]
  · exact nextItem_cfg ht

theorem writeCmd_cfg {w : Word} {s t : State} (h : writeCmd w s = .next t) : t.cfg = s.cfg := by
  rcases writeCmd_next h with ⟨i, -, h⟩ | ⟨-, rfl⟩
  · exact exec_cfg h
  · rw [raiseErr_cfg, acceptWord_cfg]

theorem hostStep_cfg {a : HostAction} {s t : State} (h : hostStep a s = .next t) : t.cfg = s.cfg := by
  rcases hostStep_next h with ⟨r, d, rfl⟩ | ⟨off, b, -, rfl⟩ | ⟨off, b, -, rfl⟩ | ⟨w, h⟩
  · rfl
  · rfl
  · rfl
  · exact writeCmd_cfg h

theorem stepEvent_cfg {e : Event} {s t : State} (h : stepEvent e s = .next t) : t.cfg = s.cfg := by
  cases e with
  | host a => exact hostStep_cfg h
  | transport c => exact complete_cfg h
  | late c => obtain ⟨⟩ := h; rfl
  | reset => obtain ⟨⟩ := h; exact resetBlock_cfg s

/-- Settles O56, by the cases of the event taken. -/
theorem stepKeepsTheParameters : Obligations.StepKeepsTheParameters := by
  intro s t h
  rcases step_next h with rfl | ⟨e, rest, -, h⟩
  · rfl
  · exact stepEvent_cfg (s := { s with events := rest }) h

end Sys2Proof.Machine
end

section
/-! The UTF-8 check accepts exactly the concatenations of the table's sequences (44_ndef_parser.md R278; O38). The check
walks from expectation to expectation; a sequence is a first byte with the bytes that complete what it expects. -/

namespace Sys2Proof.Machine

/-! ## The bytes that complete a sequence begun -/

/-- Reading the bytes from expectation `e` on leads back between sequences, and never stands there before the last of
them. -/
inductive Utf8Expect.Completes : Utf8Expect → List Byte → Prop
  | done : Completes .start []
  | step {e e' : Utf8Expect} {b : Byte} {y : List Byte} :
      e ≠ .start → utf8Step e b = some e' → Completes e' y → Completes e (b :: y)

namespace Utf8Expect

@[simp] theorem start_completes {y : List Byte} : start.Completes y ↔ y = [] := by
  constructor
  · rintro (_ | ⟨hne, -, -⟩)
    · rfl
    · contradiction
  · rintro rfl
    exact .done

@[simp] theorem not_cont_completes_nil {lo hi tail : Nat} : ¬ (cont lo hi tail).Completes [] := nofun

theorem cont_completes_cons {lo hi tail : Nat} {b : Byte} {y : List Byte} :
    (cont lo hi tail).Completes (b :: y) ↔ ∃ e, utf8Step (cont lo hi tail) b = some e ∧ e.Completes y := by
  constructor
  · rintro (_ | ⟨-, hstep, hy⟩)
    exact ⟨_, hstep, hy⟩
  · rintro ⟨e, hstep, hy⟩
    exact .step nofun hstep hy

@[simp] theorem cont_zero_completes_cons {lo hi : Nat} {b : Byte} {y : List Byte} :
    (cont lo hi 0).Completes (b :: y) ↔ inRange lo hi b = true ∧ y = [] := by
  simp [cont_completes_cons, utf8Step]

@[simp] theorem cont_succ_completes_cons {lo hi tail : Nat} {b : Byte} {y : List Byte} :
    (cont lo hi (tail + 1)).Completes (b :: y) ↔ inRange lo hi b = true ∧ (cont 0x80 0xBF tail).Completes y := by
  simp [cont_completes_cons, utf8Step]

end Utf8Expect

/-! ## The rows of R278's table -/

/-- A row: the range of its first byte, and what that byte leaves expected. -/
structure Utf8Row where
  lo : Nat
  hi : Nat
  expect : Utf8Expect

/-- `b` is a first byte of the row. -/
def startsRow (b : Byte) (row : Utf8Row) : Bool := inRange row.lo row.hi b

def utf8Rows : List Utf8Row :=
  [⟨0x00, 0x7F, .start⟩, ⟨0xC2, 0xDF, .cont 0x80 0xBF 0⟩,
    ⟨0xE0, 0xE0, .cont 0xA0 0xBF 1⟩, ⟨0xE1, 0xEC, .cont 0x80 0xBF 1⟩, ⟨0xED, 0xED, .cont 0x80 0x9F 1⟩,
    ⟨0xEE, 0xEF, .cont 0x80 0xBF 1⟩,
    ⟨0xF0, 0xF0, .cont 0x90 0xBF 2⟩, ⟨0xF1, 0xF3, .cont 0x80 0xBF 2⟩, ⟨0xF4, 0xF4, .cont 0x80 0x8F 2⟩]

theorem map_find?_cons {α β : Type} (f : α → β) (p : α → Bool) (a : α) (l : List α) :
    ((a :: l).find? p).map f = if p a then some (f a) else (l.find? p).map f := by
  cases h : p a <;> simp [h]

/-- The check's cascade tries the rows in the table's order. -/
theorem utf8Lead_eq_find (b : Byte) :
    utf8Lead b = (utf8Rows.find? (startsRow b)).map Utf8Row.expect := by
  simp only [utf8Rows, map_find?_cons]
  rfl

/-- The ranges of the rows' first bytes do not meet. -/
def Utf8Row.Apart (r r' : Utf8Row) : Prop := r.hi < r'.lo ∨ r'.hi < r.lo

theorem utf8Rows_apart {r r' : Utf8Row} (hr : r ∈ utf8Rows) (hr' : r' ∈ utf8Rows) (hne : r ≠ r') : r.Apart r' := by
  have ascending : utf8Rows.Pairwise fun r r' => r.hi < r'.lo := by simp [utf8Rows]
  have apart : utf8Rows.Pairwise Utf8Row.Apart := ascending.imp .inl
  have : Std.Symm Utf8Row.Apart := ⟨fun _ _ => Or.symm⟩
  exact apart.forall hr hr' hne

theorem utf8Row_unique {b : Byte} {r r' : Utf8Row} (hr : r ∈ utf8Rows) (hr' : r' ∈ utf8Rows)
    (hb : startsRow b r = true) (hb' : startsRow b r' = true) : r = r' := by
  by_contra hne
  have hapart := utf8Rows_apart hr hr' hne
  simp only [startsRow, inRange, Bool.and_eq_true, decide_eq_true_eq] at hb hb'
  unfold Utf8Row.Apart at hapart
  omega

/-- No two rows share a first byte, so the order in which they are tried does not matter. -/
theorem utf8Lead_eq_some {b : Byte} {e : Utf8Expect} :
    utf8Lead b = some e ↔ ∃ row ∈ utf8Rows, startsRow b row = true ∧ row.expect = e := by
  rw [utf8Lead_eq_find, Option.map_eq_some_iff]
  constructor
  · rintro ⟨row, hfind, he⟩
    exact ⟨row, List.mem_of_find?_eq_some hfind, List.find?_some hfind, he⟩
  · rintro ⟨row, hrow, hb, he⟩
    obtain ⟨row', hfind⟩ := Option.isSome_iff_exists.1 (List.find?_isSome.2 ⟨row, hrow, hb⟩)
    obtain rfl := utf8Row_unique hrow (List.mem_of_find?_eq_some hfind) hb (List.find?_some hfind)
    exact ⟨row, hfind, he⟩

theorem exists_utf8Lead_completes {b : Byte} {y : List Byte} :
    (∃ e, utf8Lead b = some e ∧ e.Completes y) ↔
      ∃ row ∈ utf8Rows, startsRow b row = true ∧ row.expect.Completes y := by
  constructor
  · rintro ⟨e, hlead, hy⟩
    obtain ⟨row, hrow, hb, rfl⟩ := utf8Lead_eq_some.1 hlead
    exact ⟨row, hrow, hb, hy⟩
  · rintro ⟨row, hrow, hb, hy⟩
    exact ⟨row.expect, utf8Lead_eq_some.2 ⟨row, hrow, hb, rfl⟩, hy⟩

/-- A sequence of the table is a first byte with what completes it. -/
theorem utf8Sequence_cons {b : Byte} {y : List Byte} :
    utf8Sequence (b :: y) = true ↔ ∃ e, utf8Lead b = some e ∧ e.Completes y := by
  rw [exists_utf8Lead_completes]
  simp only [utf8Rows, List.mem_cons, List.not_mem_nil, or_false, exists_eq_or_imp, exists_eq_left, startsRow]
  match y with
  | [] => simp [utf8Sequence]
  | [c] => simp [utf8Sequence]
  | [c, d] => simp [utf8Sequence, or_and_right, and_assoc, or_assoc]
  | [c, d, e] => simp [utf8Sequence, or_and_right, and_assoc, or_assoc]
  | c :: d :: e :: f :: z => simp [utf8Sequence]

theorem utf8Sequence_nil : utf8Sequence [] = false := rfl

/-! ## The walk -/

/-- A walk that ends between sequences completes the sequence begun and then reads whole sequences. -/
theorem sequences_of_utf8From {b : List Byte} {e : Utf8Expect} (h : utf8From e b = true) :
    ∃ (y : List Byte) (q : List (List Byte)), e.Completes y ∧
      (∀ x ∈ q, utf8Sequence x = true) ∧ b = y ++ q.flatten := by
  induction b generalizing e with
  | nil =>
    obtain rfl : e = .start := of_decide_eq_true h
    exact ⟨[], [], .done, nofun, rfl⟩
  | cons c rest ih =>
    unfold utf8From at h
    split at h
    · contradiction
    · next e' hstep =>
      obtain ⟨y, q, hy, hq, rfl⟩ := ih h
      cases e with
      | start =>
        have hseq : utf8Sequence (c :: y) = true := utf8Sequence_cons.2 ⟨e', hstep, hy⟩
        exact ⟨[], (c :: y) :: q, .done, List.forall_mem_cons.2 ⟨hseq, hq⟩, rfl⟩
      | cont lo hi tail => exact ⟨c :: y, q, .step nofun hstep hy, hq, rfl⟩

theorem utf8From_cons {e e' : Utf8Expect} {b : Byte} (h : utf8Step e b = some e') (rest : List Byte) :
    utf8From e (b :: rest) = utf8From e' rest := by
  simp only [utf8From, h]

/-- After the bytes that complete a sequence the walk is between sequences. -/
theorem Utf8Expect.Completes.utf8From_append {e : Utf8Expect} {y : List Byte} (h : e.Completes y) (rest : List Byte) :
    utf8From e (y ++ rest) = utf8From .start rest := by
  induction h with
  | done => rfl
  | step _ hstep _ ih => exact (utf8From_cons hstep _).trans ih

theorem utf8_append_of_utf8Sequence {x : List Byte} (h : utf8Sequence x = true) (rest : List Byte) :
    utf8 (x ++ rest) = utf8 rest := by
  cases x with
  | nil => simp [utf8Sequence_nil] at h
  | cons b y =>
    obtain ⟨e, hlead, hy⟩ := utf8Sequence_cons.1 h
    exact (utf8From_cons (e := .start) hlead _).trans (hy.utf8From_append rest)

theorem utf8_flatten {q : List (List Byte)} (h : ∀ x ∈ q, utf8Sequence x = true) : utf8 q.flatten = true := by
  induction q with
  | nil => rfl
  | cons x q ih =>
    obtain ⟨hx, hq⟩ := List.forall_mem_cons.1 h
    rw [List.flatten_cons, utf8_append_of_utf8Sequence hx, ih hq]

/-- Settles O38: read from between sequences, nothing has to be completed first. -/
theorem utf8IsTheTable : Obligations.Utf8IsTheTable := by
  intro b
  constructor
  · intro h
    obtain ⟨y, q, hy, hq, rfl⟩ := sequences_of_utf8From h
    obtain rfl := Utf8Expect.start_completes.1 hy
    exact ⟨q, hq, rfl⟩
  · rintro ⟨q, hq, rfl⟩
    exact utf8_flatten hq

end Sys2Proof.Machine
end
